-- ==== Sys2Proof/Word.lean ====
section
/-! DEFINITION. The word types of PAB-1 (00_scope.md R8, R9): a register holds a bit pattern of its stated width. -/

namespace Sys2Proof

/-- One byte of the buffer window (20_memory.md R78). -/
abbrev Byte := BitVec 8

/-- One 32-bit word: every bus transfer and every frame word is one (20_memory.md R72, R73). -/
abbrev Word := BitVec 32

end Sys2Proof
end

