-- ==== Sys2Proof/Config.lean ====
section
/-! DEFINITION. The fixed parameters of PAB-1 (00_scope.md R6) and the one free value the spec leaves
open, the power-on contents of the frame buffer. NUM_OSC is no constant here: it is the length of
the slot file that State holds, and only its default stands here. -/

namespace Sys2Proof.Config

/-- P, the phase units of one full turn (R6, R12). -/
abbrev turn : Int := 2147483648

/-- PINC_MAX, the largest legal phase increment (R6). -/
abbrev pincMax : Nat := 1073741824

/-- AMP_MAX, the largest legal amplitude (R6). -/
abbrev ampMax : Nat := 32767

/-- The largest legal duty threshold, P itself (10_state.md R34). -/
abbrev dutyMax : Nat := 2147483648

/-- The one illegal initial phase, exactly -P (10_state.md R33). -/
abbrev pinitIllegal : Word := 0x80000000#32

/-- 2^QF with QF = 15, one sample unit in Q15 (R6, R13). -/
abbrev qOne : Int := 32768

/-- BUF_FRAMES, the frame words of the frame buffer (R6). -/
abbrev bufFrames : Nat := 4096

/-- The default of NUM_OSC (R6). -/
abbrev numOscDefault : Nat := 32

/-- The largest NUM_OSC (R6). -/
abbrev numOscMax : Nat := 64

/-- ID_VALUE, what the identity register reads (R6; 10_state.md R21). -/
abbrev idValue : Word := 0x50414231#32

/-- The byte address of BUF[0] in the host register space (20_memory.md R71). -/
abbrev bufBase : Nat := 0x4000

/-- The first byte address after the buffer window (20_memory.md R71). -/
abbrev bufEnd : Nat := 0x8000

/-- FREE VALUE (log 5): the byte that a byte of the buffer window holds from power-on until FRAME_STEP
first writes its word. 10_state.md R39 leaves it unspecified and fixed, so nothing here says what it is. -/
opaque bufPowerOn : Nat → Byte

end Sys2Proof.Config
end

