-- ==== Sys2Proof/Machine/Arith.lean ====
section
/-! DEFINITION. The integer helpers of 00_scope.md R9 and R10, on mathematical integers. -/

namespace Sys2Proof.Machine

/-- `tdiv(a, b)`: the quotient rounded toward zero. -/
def tdiv (a b : Int) : Int := Int.tdiv a b

/-- `emod(a, m)`: the representative of a modulo m in [0, m). -/
def emod (a m : Int) : Int := Int.emod a m

def clamp (x lo hi : Int) : Int := if x < lo then lo else if hi < x then hi else x

def sat16 (x : Int) : Int := clamp x (-32768) 32767

/-- `bits16(v)`: the low 16 bits of v. -/
def bits16 (v : Int) : BitVec 16 := BitVec.ofInt 16 v

/-- `bits32(v)`: the low 32 bits of v. -/
def bits32 (v : Int) : Word := BitVec.ofInt 32 v

/-- `u32(x)`. -/
def u32 (x : Word) : Int := x.toNat

/-- `s32(x)`. -/
def s32 (x : Word) : Int := x.toInt

end Sys2Proof.Machine
end

