-- ==== Sys2Proof/Syntax.lean ====
section
/-! DEFINITION. The operation set of PAB-1: one constructor per row of spec/opcode_table.json
(30_encoding.md R104, R106 to R108, R113), its operands the fields of the row and the write data. -/

namespace Sys2Proof

/-- An operation of the block. `i` is a slot index (ADDR[10:5]), `k` a frame index (ADDR[13:2]),
`wdata` the write data of a host write (30_encoding.md R102). -/
inductive Instr where
  | rdId
  | wrId (wdata : Word)
  | rdStatus
  | wrStatus (wdata : Word)
  | rdCmd
  | wrCmd (wdata : Word)
  | rdChcfg
  | wrChcfg (wdata : Word)
  | rdNosc
  | wrNosc (wdata : Word)
  | rdBlklen
  | wrBlklen (wdata : Word)
  | rdFramecnt
  | wrFramecnt (wdata : Word)
  | rdBlkcnt
  | wrBlkcnt (wdata : Word)
  | rdErrinfo
  | wrErrinfo (wdata : Word)
  | rdPinc (i : BitVec 6)
  | wrPinc (i : BitVec 6) (wdata : Word)
  | rdPinit (i : BitVec 6)
  | wrPinit (i : BitVec 6) (wdata : Word)
  | rdDuty (i : BitVec 6)
  | wrDuty (i : BitVec 6) (wdata : Word)
  | rdAmp (i : BitVec 6)
  | wrAmp (i : BitVec 6) (wdata : Word)
  | rdPhase (i : BitVec 6)
  | wrPhase (i : BitVec 6) (wdata : Word)
  | rdBuf (k : BitVec 12)
  | wrBuf (k : BitVec 12) (wdata : Word)
  /-- A host request that matches no valid row; `we` is REQ[16], `addr` is REQ[15:0]. -/
  | busErr (we : Bool) (addr : BitVec 16)
  | nop
  | start
  | softreset
  | clear
  /-- Any command word other than the four defined ones, carried whole. -/
  | cmdRsvd (w : Word)
  | sinkRead (k : BitVec 12)
  | sinkDone (n : BitVec 13)
  /-- SRSP[12:0] is ignored by the block and kept here so that no bit of the word is dropped. -/
  | sinkError (n : BitVec 13)
deriving DecidableEq, Repr

end Sys2Proof
end

