-- ==== Sys2Proof/WellFormed.lean ====
section
/-! DEFINITION. Which operations of `Instr` a word of the spec's encoding can stand for, on a block of
`n` oscillator slots. -/

namespace Sys2Proof

/-- The host register space map of 20_memory.md R71, as a check on a byte address: aligned (R74) and one
of the mapped locations of a block of `n` slots. -/
def mapped (n a : Nat) : Bool :=
  a % 4 == 0 &&
    (a < 0x24
      || (0x800 ≤ a && a < 0x800 + 0x20 * n && a % 0x20 < 0x14)
      || (0x4000 ≤ a && a < 0x8000))

/-- A slot operation needs a slot that exists (30_encoding.md R104, "matches only when i < NUM_OSC"), a
BUS_ERR an address off the map, a CMD_RSVD a word that is none of the four commands (R106). -/
def Instr.wf (n : Nat) : Instr → Bool
  | .rdId | .rdStatus | .rdCmd | .rdChcfg | .rdNosc | .rdBlklen => true
  | .rdFramecnt | .rdBlkcnt | .rdErrinfo => true
  | .wrId _ | .wrStatus _ | .wrCmd _ | .wrChcfg _ | .wrNosc _ | .wrBlklen _ => true
  | .wrFramecnt _ | .wrBlkcnt _ | .wrErrinfo _ => true
  | .rdPinc i | .rdPinit i | .rdDuty i | .rdAmp i | .rdPhase i => i.toNat < n
  | .wrPinc i _ | .wrPinit i _ | .wrDuty i _ | .wrAmp i _ | .wrPhase i _ => i.toNat < n
  | .rdBuf _ | .wrBuf _ _ => true
  | .busErr _ addr => !mapped n addr.toNat
  | .nop | .start | .softreset | .clear => true
  | .cmdRsvd w => 4 ≤ w.toNat
  | .sinkRead _ | .sinkDone _ | .sinkError _ => true

end Sys2Proof
end

