-- ==== Sys2Proof/Decode.lean ====
section
/-! DEFINITION. The decoder of the four encoded formats of PAB-1 (30_encoding.md R100 to R109) and, after
it, the encoder. Every word of every format decodes to an operation (R109); only a byte string that
is no word of its format is rejected, by name. -/

namespace Sys2Proof

/-- An encoded operation in one of the four formats of R100: BUS (REQ[16:0] with WDATA), CMD (the word a
host write to CMD carries), SRD (the sink's read index), SRSP (the sink's answer). -/
inductive Request where
  | bus (req : BitVec 17) (wdata : Word)
  | cmd (w : Word)
  | srd (index : BitVec 12)
  | srsp (w : BitVec 14)
deriving DecidableEq, Repr

/-- The kind of an encoded operation, which fixes its length (R100). -/
inductive Port where
  | bus | cmd | srd | srsp
deriving DecidableEq, Repr

/-- Why a byte string is no encoded operation of its port. Raised by `Request.ofBytes`; safe, since the
hardware has no such string. -/
inductive DecodeReject where
  | wrongLength
  | reqPaddingSet
  | indexPaddingSet
  | responsePaddingSet
deriving DecidableEq, Repr

/-! ## BUS: the fields of R101 and the decode of R104 -/

/-- WE, REQ[16]. -/
def reqWe (req : BitVec 17) : Bool := req.getLsbD 16

/-- ADDR, REQ[15:0]. -/
def reqAddr (req : BitVec 17) : BitVec 16 := req.extractLsb' 0 16

/-- SLOT i, ADDR[10:5] (R102). -/
def addrSlot (addr : BitVec 16) : BitVec 6 := addr.extractLsb' 5 6

/-- The frame index k, ADDR[13:2] (R102). -/
def addrFrame (addr : BitVec 16) : BitVec 12 := addr.extractLsb' 2 12

/-- The global registers, by GIDX = ADDR[5:2]; `none` where the map has no register. -/
def decodeGlobal (we : Bool) (gidx : Nat) (wdata : Word) : Option Instr :=
  match gidx with
  | 0 => some (if we then .wrId wdata else .rdId)
  | 1 => some (if we then .wrStatus wdata else .rdStatus)
  | 2 => some (if we then .wrCmd wdata else .rdCmd)
  | 3 => some (if we then .wrChcfg wdata else .rdChcfg)
  | 4 => some (if we then .wrNosc wdata else .rdNosc)
  | 5 => some (if we then .wrBlklen wdata else .rdBlklen)
  | 6 => some (if we then .wrFramecnt wdata else .rdFramecnt)
  | 7 => some (if we then .wrBlkcnt wdata else .rdBlkcnt)
  | 8 => some (if we then .wrErrinfo wdata else .rdErrinfo)
  | _ => none

/-- The fields of slot `i`, by FOFF[4:2] = ADDR[4:2]; `none` at the offsets 0x14, 0x18, 0x1C. -/
def decodeSlot (we : Bool) (i : BitVec 6) (field : Nat) (wdata : Word) : Option Instr :=
  match field with
  | 0 => some (if we then .wrPinc i wdata else .rdPinc i)
  | 1 => some (if we then .wrPinit i wdata else .rdPinit i)
  | 2 => some (if we then .wrDuty i wdata else .rdDuty i)
  | 3 => some (if we then .wrAmp i wdata else .rdAmp i)
  | 4 => some (if we then .wrPhase i wdata else .rdPhase i)
  | _ => none

/-- The valid rows of R104 on a block of `n` slots; `none` where no row matches: misaligned (ADDR[1:0] is
not 0), unmapped, or a slot index at or above `n`. -/
def decodeAddr (n : Nat) (we : Bool) (addr : BitVec 16) (wdata : Word) : Option Instr :=
  if addr.extractLsb' 0 2 ≠ 0#2 then none
  else if addr.extractLsb' 14 2 = 1#2 then
    some (if we then .wrBuf (addrFrame addr) wdata else .rdBuf (addrFrame addr))
  else if addr.extractLsb' 11 5 = 1#5 then
    if (addrSlot addr).toNat < n then
      decodeSlot we (addrSlot addr) (addr.extractLsb' 2 3).toNat wdata
    else none
  else if addr.extractLsb' 6 10 = 0#10 then
    decodeGlobal we (addr.extractLsb' 2 4).toNat wdata
  else none

/-- R104: a BUS request; one that matches no valid row is BUS_ERR. -/
def decodeBus (n : Nat) (req : BitVec 17) (wdata : Word) : Instr :=
  (decodeAddr n (reqWe req) (reqAddr req) wdata).getD (.busErr (reqWe req) (reqAddr req))

/-! ## CMD, SRD and SRSP -/

/-- R106: the exact 32-bit match of a command word, choosing among the five operations. The decoder and
the meaning of WR_CMD (40_config_and_commands.md R127) both read this one table. -/
def cmdSelect {α : Type} (w : Word) (nop start softreset clear rsvd : α) : α :=
  if w = 0x00000000#32 then nop
  else if w = 0x00000001#32 then start
  else if w = 0x00000002#32 then softreset
  else if w = 0x00000003#32 then clear
  else rsvd

def decodeCmd (w : Word) : Instr :=
  cmdSelect w .nop .start .softreset .clear (.cmdRsvd w)

/-- R108: ERR = SRSP[13], N = SRSP[12:0]. -/
def decodeSrsp (w : BitVec 14) : Instr :=
  if w.getLsbD 13 then .sinkError (w.extractLsb' 0 13) else .sinkDone (w.extractLsb' 0 13)

/-- The operation an encoded request stands for on a block of `n` slots. Total: R109. -/
def decode (n : Nat) : Request → Instr
  | .bus req wdata => decodeBus n req wdata
  | .cmd w => decodeCmd w
  | .srd index => .sinkRead index
  | .srsp w => decodeSrsp w

/-! ## Requests as bytes (log 10): each word little-endian, zero padding above its top bit -/

/-- How many bytes a request of a port takes: REQ 3 and WDATA 4, CMD 4, SRD 2, SRSP 2. -/
def Port.bytes : Port → Nat
  | .bus => 7
  | .cmd => 4
  | .srd => 2
  | .srsp => 2

/-- The number whose little-endian bytes are the list. -/
def leNat : List Byte → Nat
  | [] => 0
  | b :: bs => b.toNat + 256 * leNat bs

/-- The first `n` little-endian bytes of a number. -/
def leBytes : Nat → Nat → List Byte
  | 0, _ => []
  | n + 1, w => BitVec.ofNat 8 w :: leBytes n (w / 256)

def Request.ofBytes (p : Port) (bs : List Byte) : Except DecodeReject Request :=
  if bs.length ≠ p.bytes then .error .wrongLength
  else match p with
    | .bus =>
      if leNat (bs.take 3) < 2 ^ 17 then
        .ok (.bus (BitVec.ofNat 17 (leNat (bs.take 3))) (BitVec.ofNat 32 (leNat (bs.drop 3))))
      else .error .reqPaddingSet
    | .cmd => .ok (.cmd (BitVec.ofNat 32 (leNat bs)))
    | .srd =>
      if leNat bs < 2 ^ 12 then .ok (.srd (BitVec.ofNat 12 (leNat bs)))
      else .error .indexPaddingSet
    | .srsp =>
      if leNat bs < 2 ^ 14 then .ok (.srsp (BitVec.ofNat 14 (leNat bs)))
      else .error .responsePaddingSet

/-- Decoding any bytes at a port: the operation, or the rejection by name. -/
def decodeBytes (n : Nat) (p : Port) (bs : List Byte) : Except DecodeReject Instr :=
  match Request.ofBytes p bs with
  | .ok r => .ok (decode n r)
  | .error e => .error e

/-- The port whose rows the opcode table gives that many bits (17, 32, 12, 14), also when the number is
rounded up to whole bytes; 16 bits are read as SRSP (log 10). -/
def portOfBits (nbits : Nat) : Option Port :=
  if nbits = 17 ∨ nbits = 24 ∨ nbits = 56 then some .bus
  else if nbits = 32 then some .cmd
  else if nbits = 12 then some .srd
  else if nbits = 14 ∨ nbits = 16 then some .srsp
  else none

/-- The request whose bits, numbered as the opcode table numbers them, are `w`; the bits above `nbits`
(the write data of a BUS row) are zero. -/
def tableRequest (nbits w : Nat) : Option Request :=
  match portOfBits nbits with
  | none => none
  | some p =>
    if 2 ^ nbits ≤ w then none
    else match Request.ofBytes p (leBytes p.bytes w) with
      | .ok r => some r
      | .error _ => none

/-- What this decoder reads from an opcode-table word, on a block of the default NUM_OSC. -/
def decodeTableWord (nbits w : Nat) : Option Instr :=
  match portOfBits nbits with
  | none => none
  | some p =>
    if 2 ^ nbits ≤ w then none
    else match decodeBytes Config.numOscDefault p (leBytes p.bytes w) with
      | .ok i => some i
      | .error _ => none

/-! ## The encoder, from the address formulas of R111 -/

/-- A BUS selector from WE and a byte address. -/
def busReq (we : Bool) (addr : Nat) : BitVec 17 :=
  BitVec.ofNat 17 ((if we then 0x10000 else 0) + addr)

/-- The byte address of a field of slot `i`, 0x0800 + 0x20·i + offset. -/
def slotAddr (i : BitVec 6) (offset : Nat) : Nat := 0x800 + 0x20 * i.toNat + offset

/-- The byte address of frame word `k`, 0x4000 + 4·k. -/
def frameAddr (k : BitVec 12) : Nat := 0x4000 + 4 * k.toNat

/-- A host read; its WDATA lines carry nothing (log 11). -/
def readReq (addr : Nat) : Request := .bus (busReq false addr) 0#32

def writeReq (addr : Nat) (wdata : Word) : Request := .bus (busReq true addr) wdata

def encode : Instr → Request
  | .rdId => readReq 0x00
  | .wrId wdata => writeReq 0x00 wdata
  | .rdStatus => readReq 0x04
  | .wrStatus wdata => writeReq 0x04 wdata
  | .rdCmd => readReq 0x08
  | .wrCmd wdata => writeReq 0x08 wdata
  | .rdChcfg => readReq 0x0C
  | .wrChcfg wdata => writeReq 0x0C wdata
  | .rdNosc => readReq 0x10
  | .wrNosc wdata => writeReq 0x10 wdata
  | .rdBlklen => readReq 0x14
  | .wrBlklen wdata => writeReq 0x14 wdata
  | .rdFramecnt => readReq 0x18
  | .wrFramecnt wdata => writeReq 0x18 wdata
  | .rdBlkcnt => readReq 0x1C
  | .wrBlkcnt wdata => writeReq 0x1C wdata
  | .rdErrinfo => readReq 0x20
  | .wrErrinfo wdata => writeReq 0x20 wdata
  | .rdPinc i => readReq (slotAddr i 0x00)
  | .wrPinc i wdata => writeReq (slotAddr i 0x00) wdata
  | .rdPinit i => readReq (slotAddr i 0x04)
  | .wrPinit i wdata => writeReq (slotAddr i 0x04) wdata
  | .rdDuty i => readReq (slotAddr i 0x08)
  | .wrDuty i wdata => writeReq (slotAddr i 0x08) wdata
  | .rdAmp i => readReq (slotAddr i 0x0C)
  | .wrAmp i wdata => writeReq (slotAddr i 0x0C) wdata
  | .rdPhase i => readReq (slotAddr i 0x10)
  | .wrPhase i wdata => writeReq (slotAddr i 0x10) wdata
  | .rdBuf k => readReq (frameAddr k)
  | .wrBuf k wdata => writeReq (frameAddr k) wdata
  | .busErr we addr => .bus (busReq we addr.toNat) 0#32
  | .nop => .cmd 0#32
  | .start => .cmd 1#32
  | .softreset => .cmd 2#32
  | .clear => .cmd 3#32
  | .cmdRsvd w => .cmd w
  | .sinkRead k => .srd k
  | .sinkDone n => .srsp (BitVec.ofNat 14 n.toNat)
  | .sinkError n => .srsp (BitVec.ofNat 14 (0x2000 + n.toNat))

/-- The port a request arrives at. -/
def Request.port : Request → Port
  | .bus _ _ => .bus
  | .cmd _ => .cmd
  | .srd _ => .srd
  | .srsp _ => .srsp

/-- The bytes of a request, in the layout `Request.ofBytes` reads. -/
def Request.toBytes : Request → List Byte
  | .bus req wdata => leBytes 3 req.toNat ++ leBytes 4 wdata.toNat
  | .cmd w => leBytes 4 w.toNat
  | .srd index => leBytes 2 index.toNat
  | .srsp w => leBytes 2 w.toNat

end Sys2Proof
end

