-- ==== Sys2Proof/Machine/State.lean ====
section
/-! DEFINITION. The state of PAB-1 as plain data: `Block` is the architectural state, "exactly" that of
10_state.md R20, and `State` adds the model's own two fields, the response of the last step and the
agents' agenda. -/

namespace Sys2Proof.Machine

/-- STATUS.STATE (10_state.md R22, R23). -/
inductive SeqState where
  | idle | fill | drain | halt
deriving DecidableEq, Repr

/-- A waveform kind (10_state.md R24). -/
inductive Kind where
  | sine | square | triangle | silent
deriving DecidableEq, Repr

/-- ERRINFO.CODE: the codes 0 to 8 of 60_exceptions.md R241; 9 to 15 are never recorded. -/
inductive ErrCode where
  | none | cfgNosc | cfgBlklen | cfgPinc | cfgAmp | cfgPinit | cfgDuty | sinkErr | sinkShort
deriving DecidableEq, Repr

/-- ERRINFO (10_state.md R29). -/
structure ErrInfo where
  code : ErrCode
  osc : BitVec 6
  written : BitVec 13
deriving DecidableEq, Repr

/-- One slot of the oscillator slot file (10_state.md R31 to R36). PINC and DUTY are read as unsigned,
PINIT and PHASE as two's complement, AMP as unsigned. -/
structure Slot where
  pinc : Word
  pinit : Word
  duty : Word
  amp : BitVec 16
  phase : Word
deriving DecidableEq, Repr

/-- The frame buffer as byte cells at their bus addresses, strictly rising (log 6). An address that is
not listed has not been written since power-on. -/
abbrev Memory := List Host.Cell

/-- The architectural state (10_state.md R20). NUM_OSC is the length of `slots` (R31; log 4). ID, the sine
table and the write-only CMD hold no state that can change (log 12). -/
structure Block where
  seq : SeqState
  cfgErr : Bool
  sinkErr : Bool
  cmdErr : Bool
  wign : Bool
  lkind : Kind
  rkind : Kind
  nleft : BitVec 7
  nright : BitVec 7
  len : BitVec 13
  frameCnt : BitVec 13
  blkCnt : Word
  errInfo : ErrInfo
  slots : List Slot
  buf : Memory
deriving DecidableEq, Repr

/-- What a step answers (30_encoding.md R101, R103, R107): a host read OKAY with RDATA or ERROR with RDATA,
a host write OKAY or ERROR, a sink read its rd_data, any other step nothing (log 3). -/
inductive Response where
  | none
  | okayRead (rdata : Word)
  | okayWrite
  | errorRead (rdata : Word)
  | errorWrite
  | sinkData (rdData : Word)
deriving DecidableEq, Repr

/-- One step of one agent (00_scope.md R7): a request of the HOST or the SINK, a turn of SEQ, or the
platform's hard reset input (70_reset_and_hazards.md R270). -/
inductive Event where
  | request (r : Request)
  | seq
  | rst
deriving DecidableEq, Repr

/-- The machine: the block, the response of the step just taken, and the agents' next steps in their one
total order (20_memory.md R81; log 1). -/
structure State where
  block : Block
  resp : Response
  agenda : List Event
deriving DecidableEq, Repr

/-- Why the machine stops. PAB-1 itself never does: HALT is a state (60_exceptions.md R242; log 17). -/
inductive Fault where
  /-- Raised by FRAME_STEP when FRAMECNT is 4096 or more, so that BUF[FRAMECNT] does not exist. No state
  that satisfies the invariant raises it (log 9); safe. -/
  | frameIndexOutsideBuffer
deriving DecidableEq, Repr

/-- Why an operation has no meaning. -/
inductive Refusal where
  /-- Raised only by an arm of `exec` whose instruction is not modelled yet; no arm is; safe. -/
  | notModelled (mnemonic : String)
deriving DecidableEq, Repr

/-- A slot at its reset values (10_state.md R41). -/
def Slot.atReset : Slot :=
  { pinc := 0#32, pinit := 0#32, duty := 0#32, amp := 0#16, phase := 0#32 }

/-- Power-on (70_reset_and_hazards.md R271): the reset values of 10_state.md R41 on a block of `numOsc`
slots, with the contents of BUF an argument. -/
def State.powerOn (numOsc : Nat) (buf : Memory) : State :=
  { block :=
      { seq := .idle, cfgErr := false, sinkErr := false, cmdErr := false, wign := false
        lkind := .silent, rkind := .silent
        nleft := 0#7, nright := 0#7, len := 4096#13, frameCnt := 0#13, blkCnt := 0#32
        errInfo := { code := .none, osc := 0#6, written := 0#13 }
        slots := List.replicate numOsc Slot.atReset
        buf := buf }
    resp := .none
    agenda := [] }

/-- The machine right after power-on: the default NUM_OSC, and a BUF of which nothing has been written
(each byte the free value of log 5). -/
def State.reset : State := State.powerOn Config.numOscDefault []

end Sys2Proof.Machine
end

