-- ==== Sys2Proof/Machine/Flags.lean ====
section
/-! DEFINITION. The four sticky flags of STATUS (10_state.md R22): what sets and what clears each. There is
no arithmetic flag (43_mixer_sequencer.md R212: saturation is not reported). -/

namespace Sys2Proof.Machine

/-- START found an invalid configuration (40_config_and_commands.md R141). -/
def Block.setCfgErr (b : Block) : Block := { b with cfgErr := true }

/-- The sink reported an error or a short write (43_mixer_sequencer.md R217, R218). -/
def Block.setSinkErr (b : Block) : Block := { b with sinkErr := true }

/-- A reserved command, or a START outside IDLE (40_config_and_commands.md R141, R144). -/
def Block.setCmdErr (b : Block) : Block := { b with cmdErr := true }

/-- A configuration write outside IDLE was ignored (40_config_and_commands.md R121). -/
def Block.setWign (b : Block) : Block := { b with wign := true }

/-- CLEAR (40_config_and_commands.md R143). -/
def Block.clearWarnings (b : Block) : Block := { b with cmdErr := false, wign := false }

end Sys2Proof.Machine
end

