-- ==== Sys2Proof/Machine/Operands.lean ====
section
/-! DEFINITION. Operand assembly from the write data (30_encoding.md R102), the codes of the coded fields,
and the register images a read returns (R103; 10_state.md R21 to R29). Reserved bits read as zero and
are discarded by a write (20_memory.md R76). -/

namespace Sys2Proof.Machine

/-! ## Codes -/

/-- The kind codes of 10_state.md R24. -/
def Kind.code : Kind → BitVec 2
  | .sine => 0#2
  | .square => 1#2
  | .triangle => 2#2
  | .silent => 3#2

def kindOfCode (c : BitVec 2) : Kind :=
  if c = 0#2 then .sine else if c = 1#2 then .square else if c = 2#2 then .triangle else .silent

/-- The codes of STATE, 10_state.md R22. -/
def SeqState.code : SeqState → BitVec 2
  | .idle => 0#2
  | .fill => 1#2
  | .drain => 2#2
  | .halt => 3#2

/-- The fatal error codes of 60_exceptions.md R241. -/
def ErrCode.code : ErrCode → BitVec 4
  | .none => 0#4
  | .cfgNosc => 1#4
  | .cfgBlklen => 2#4
  | .cfgPinc => 3#4
  | .cfgAmp => 4#4
  | .cfgPinit => 5#4
  | .cfgDuty => 6#4
  | .sinkErr => 7#4
  | .sinkShort => 8#4

/-! ## Write data (30_encoding.md R102) -/

def wdataLkind (w : Word) : Kind := kindOfCode (w.extractLsb' 0 2)
def wdataRkind (w : Word) : Kind := kindOfCode (w.extractLsb' 2 2)
def wdataNleft (w : Word) : BitVec 7 := w.extractLsb' 0 7
def wdataNright (w : Word) : BitVec 7 := w.extractLsb' 8 7
def wdataLen (w : Word) : BitVec 13 := w.extractLsb' 0 13
def wdataAmp (w : Word) : BitVec 16 := w.extractLsb' 0 16

/-! ## Register images (40_config_and_commands.md R132, R134 to R137) -/

def bit (b : Bool) : BitVec 1 := BitVec.ofBool b

def statusImage (b : Block) : Word :=
  (0#24 ++ bit b.wign ++ bit b.cmdErr ++ bit b.sinkErr ++ bit b.cfgErr ++ 0#2 ++ b.seq.code :
    BitVec (24 + 1 + 1 + 1 + 1 + 2 + 2))

def chcfgImage (b : Block) : Word := (0#28 ++ b.rkind.code ++ b.lkind.code : BitVec (28 + 2 + 2))

def noscImage (b : Block) : Word := (0#17 ++ b.nright ++ 0#1 ++ b.nleft : BitVec (17 + 7 + 1 + 7))

def blklenImage (b : Block) : Word := (0#19 ++ b.len : BitVec (19 + 13))

def framecntImage (b : Block) : Word := (0#19 ++ b.frameCnt : BitVec (19 + 13))

def errinfoImage (b : Block) : Word :=
  (0#3 ++ b.errInfo.written ++ 0#2 ++ b.errInfo.osc ++ 0#4 ++ b.errInfo.code.code :
    BitVec (3 + 13 + 2 + 6 + 4 + 4))

def ampImage (sl : Slot) : Word := (0#16 ++ sl.amp : BitVec (16 + 16))

end Sys2Proof.Machine
end

