-- ==== Sys2Proof/Machine/Ops.lean ====
section
/-! DEFINITION. The named operations over the frame buffer, the slot file and the response, the
configuration write gate, entry to HALT and the way out of it, reset. -/

namespace Sys2Proof.Machine

/-! ## The frame buffer as bytes (log 5, log 6) -/

/-- Addresses strictly rising from `lo`, all inside the buffer window. -/
def Memory.risingFrom (lo : Nat) : Memory → Bool
  | [] => true
  | c :: m => decide (lo ≤ c.1) && decide (c.1 < Config.bufEnd) && Memory.risingFrom (c.1 + 1) m

/-- The canonical form: addresses strictly rising inside the buffer window. An unlisted address holds no
value (it has not been written since power-on), so no entry can equal it. -/
def Memory.wf (m : Memory) : Bool := Memory.risingFrom Config.bufBase m

/-- The byte written at `a`, or `none` if nothing has written it since power-on. -/
def Memory.lookup (a : Nat) : Memory → Option Byte
  | [] => none
  | c :: m => if c.1 = a then some c.2 else Memory.lookup a m

/-- What the byte at `a` reads as: what was last written to it, else its power-on value (10_state.md
R39), a free value. -/
def Memory.readByte (m : Memory) (a : Nat) : Byte := (Memory.lookup a m).getD (Config.bufPowerOn a)

def Memory.writeByte (a : Nat) (v : Byte) : Memory → Memory
  | [] => [(a, v)]
  | c :: m =>
    if a < c.1 then (a, v) :: c :: m
    else if c.1 = a then (a, v) :: m
    else c :: Memory.writeByte a v m

/-- Byte `j` of a word, bits [8j+7:8j] (20_memory.md R78). -/
def wordByte (w : Word) (j : Nat) : Byte := w.extractLsb' (8 * j) 8

/-- The word whose byte `j` lies at `a + j` (20_memory.md R78). -/
def Memory.readWord (m : Memory) (a : Nat) : Word :=
  (m.readByte (a + 3) ++ m.readByte (a + 2) ++ m.readByte (a + 1) ++ m.readByte a :
    BitVec (8 + 8 + 8 + 8))

def Memory.writeWord (m : Memory) (a : Nat) (w : Word) : Memory :=
  Memory.writeByte (a + 3) (wordByte w 3)
    (Memory.writeByte (a + 2) (wordByte w 2)
      (Memory.writeByte (a + 1) (wordByte w 1) (Memory.writeByte a (wordByte w 0) m)))

/-- The byte address of frame word `k` (20_memory.md R71). -/
def bufAddr (k : Nat) : Nat := Config.bufBase + 4 * k

/-- `BUF[k]`. -/
def Block.readFrame (b : Block) (k : Nat) : Word := b.buf.readWord (bufAddr k)

/-- `BUF[k] <- w`. -/
def Block.writeFrame (b : Block) (k : Nat) (w : Word) : Block :=
  { b with buf := b.buf.writeWord (bufAddr k) w }

/-! ## The slot file -/

/-- NUM_OSC of this block. -/
def Block.numOsc (b : Block) : Nat := b.slots.length

/-- NA = NLEFT + NRIGHT, the number of active slots (43_mixer_sequencer.md R210). -/
def Block.numActive (b : Block) : Nat := b.nleft.toNat + b.nright.toNat

/-- The active slots, 0 to NA - 1. -/
def Block.activeSlots (b : Block) : List Slot := b.slots.take b.numActive

/-- Slot `i`, if it exists. -/
def Block.slot? (b : Block) (i : BitVec 6) : Option Slot := b.slots[i.toNat]?

def Block.setSlot (b : Block) (i : BitVec 6) (sl : Slot) : Block :=
  { b with slots := b.slots.set i.toNat sl }

/-! ## The end of a step -/

/-- A step that leaves the block `b` and answers `r`. -/
def State.finish (s : State) (b : Block) (r : Response) : Host.Outcome State Fault Refusal :=
  .next { s with block := b, resp := r }

/-- A host read of a mapped location: OKAY with the value, and no state change (20_memory.md R79). -/
def State.answerRead (s : State) (v : Word) : Host.Outcome State Fault Refusal :=
  s.finish s.block (.okayRead v)

/-- BUS_ERR: an ERROR response, RDATA 0 for a read, and no state change (40_config_and_commands.md
R139). -/
def State.busError (s : State) (we : Bool) : Host.Outcome State Fault Refusal :=
  s.finish s.block (if we then .errorWrite else .errorRead 0#32)

/-! ## Bus access to registers and slots -/

/-- The configuration write gate (40_config_and_commands.md R121): `f` in IDLE, else WIGN. OKAY either
way. -/
def State.configWrite (s : State) (f : Block → Block) : Host.Outcome State Fault Refusal :=
  s.finish (if s.block.seq = .idle then f s.block else s.block.setWign) .okayWrite

/-- A write to a location that is no configuration register: OKAY and nothing else
(40_config_and_commands.md R130). -/
def State.discardWrite (s : State) : Host.Outcome State Fault Refusal :=
  s.finish s.block .okayWrite

/-- A read of a field of slot `i`; a slot that does not exist is unmapped (10_state.md R37; log 8). -/
def State.readSlot (s : State) (i : BitVec 6) (f : Slot → Word) : Host.Outcome State Fault Refusal :=
  match s.block.slot? i with
  | some sl => s.answerRead (f sl)
  | none => s.busError false

/-- A write to a configuration field of slot `i`, through the gate. -/
def State.writeSlot (s : State) (i : BitVec 6) (f : Slot → Slot) : Host.Outcome State Fault Refusal :=
  match s.block.slot? i with
  | some sl => s.configWrite fun b => b.setSlot i (f sl)
  | none => s.busError true

/-! ## Entry to HALT, and reset, the only way out -/

/-- `raise Halt(code, osc, written)` (60_exceptions.md R242): ERRINFO and STATE, nothing else. The caller
has set CFG_ERR or SINK_ERR. -/
def Block.raiseHalt (b : Block) (code : ErrCode) (osc : BitVec 6) (written : BitVec 13) : Block :=
  { b with errInfo := { code := code, osc := osc, written := written }, seq := .halt }

/-- `Reset()` (70_reset_and_hazards.md R270): every register at its value of 10_state.md R41, BUF as it
was. -/
def Block.reset (b : Block) : Block :=
  { seq := .idle, cfgErr := false, sinkErr := false, cmdErr := false, wign := false
    lkind := .silent, rkind := .silent
    nleft := 0#7, nright := 0#7, len := 4096#13, frameCnt := 0#13, blkCnt := 0#32
    errInfo := { code := .none, osc := 0#6, written := 0#13 }
    slots := b.slots.map fun _ =>
      { pinc := 0#32, pinit := 0#32, duty := 0#32, amp := 0#16, phase := 0#32 }
    buf := b.buf }

/-- The hard reset input `rst`, one atomic step allowed in every state (R270; log 16). -/
def State.hardReset (s : State) : Host.Outcome State Fault Refusal :=
  s.finish s.block.reset .none

end Sys2Proof.Machine
end

