-- ==== Sys2Proof/Machine/PhaseBank.lean ====
section
/-! DEFINITION. The phase accumulator bank (41_phase_bank.md): the load at START and the tick. -/

namespace Sys2Proof.Machine

/-- Advance(v, inc) (R162), the two-sided wrap; R164 says the first branch is never taken. -/
def advance (v inc : Int) : Int :=
  let t := v + inc
  if t ≤ -Config.turn then t + Config.turn
  else if Config.turn ≤ t then t - Config.turn
  else t

/-- The slot with its phase advanced by its increment. -/
def Slot.tick (sl : Slot) : Slot := { sl with phase := bits32 (advance (s32 sl.phase) (u32 sl.pinc)) }

/-- Tick() (R162): every active slot, whatever its channel's kind; inactive slots stay. -/
def Block.tick (b : Block) : Block :=
  { b with slots := b.slots.mapIdx fun i sl => if i < b.numActive then sl.tick else sl }

/-- PhaseLoad() (R161): PINIT in the active slots, 0 in the others. The 32-bit pattern of s32(PINIT) is
PINIT itself. -/
def Block.phaseLoad (b : Block) : Block :=
  { b with slots := b.slots.mapIdx fun i sl =>
      { sl with phase := if i < b.numActive then sl.pinit else 0#32 } }

end Sys2Proof.Machine
end

