-- ==== Sys2Proof/Machine/Commands.lean ====
section
/-! DEFINITION. The command port: WR_CMD (40_config_and_commands.md R127), the commands (R140 to R144) and
START's validation (R145). A command is carried by a host write to CMD (30_encoding.md R100), so each
answers that write OKAY (R127; log 7). -/

namespace Sys2Proof.Machine

/-- The four checks of one active slot, in their order (R145). -/
def Slot.check (sl : Slot) : Option ErrCode :=
  if Config.pincMax < sl.pinc.toNat then some .cfgPinc
  else if Config.ampMax < sl.amp.toNat then some .cfgAmp
  else if sl.pinit = Config.pinitIllegal then some .cfgPinit
  else if Config.dutyMax < sl.duty.toNat then some .cfgDuty
  else none

/-- The first slot that fails, in ascending index from `i` (R145, 60_exceptions.md R245). -/
def firstFailing (i : Nat) : List Slot → Option (ErrCode × BitVec 6)
  | [] => none
  | sl :: rest =>
    match sl.check with
    | some code => some (code, BitVec.ofNat 6 i)
    | none => firstFailing (i + 1) rest

/-- Validate() (R145): the first failing check with its slot, or `none` for (0, 0). Only active slots are
checked, whatever the channel kinds (R147). -/
def Block.validate (b : Block) : Option (ErrCode × BitVec 6) :=
  if b.numOsc < b.numActive then some (.cfgNosc, 0#6)
  else if b.len.toNat < 1 ∨ Config.bufFrames < b.len.toNat then some (.cfgBlklen, 0#6)
  else firstFailing 0 b.activeSlots

/-- A command that has run: the host write that carried it is answered OKAY (R127). -/
def State.commandDone (s : State) (b : Block) : Host.Outcome State Fault Refusal :=
  s.finish b .okayWrite

/-- NOP (R140). -/
def execNop (s : State) : Host.Outcome State Fault Refusal := s.commandDone s.block

/-- What START does to the block (R141). -/
def Block.start (b : Block) : Block :=
  if b.seq ≠ .idle then b.setCmdErr
  else match b.validate with
    | some (code, osc) => b.setCfgErr.raiseHalt code osc 0#13
    | none => { b.phaseLoad with frameCnt := 0#13, blkCnt := 0#32, seq := .fill }

/-- START (R141). -/
def execStart (s : State) : Host.Outcome State Fault Refusal := s.commandDone s.block.start

/-- SOFTRESET (R142): exactly the hard reset's effect. -/
def execSoftreset (s : State) : Host.Outcome State Fault Refusal := s.commandDone s.block.reset

/-- CLEAR (R143). -/
def execClear (s : State) : Host.Outcome State Fault Refusal := s.commandDone s.block.clearWarnings

/-- CMD_RSVD (R144). -/
def execCmdRsvd (_w : Word) (s : State) : Host.Outcome State Fault Refusal :=
  s.commandDone s.block.setCmdErr

/-- WR_CMD (R127): the response and the command's effect are one atomic step. -/
def execWrCmd (wdata : Word) (s : State) : Host.Outcome State Fault Refusal :=
  cmdSelect wdata (execNop s) (execStart s) (execSoftreset s) (execClear s) (execCmdRsvd wdata s)

end Sys2Proof.Machine
end

