-- ==== Sys2Proof/Machine/Waveform.lean ====
section
/-! DEFINITION. The waveform evaluator of 42_waveform.md: exact integer contributions in Q15. -/

namespace Sys2Proof.Machine

/-! ## The quarter-wave table Q[0..256] (R184), in rows of 16 as the spec prints it -/

/-- Q[0] to Q[63]. -/
def quarterWave0 : List Int :=
  [0, 201, 402, 603, 804, 1005, 1206, 1407, 1608, 1809, 2009, 2210, 2411, 2611, 2811, 3012] ++
  [3212, 3412, 3612, 3812, 4011, 4211, 4410, 4609, 4808, 5007, 5205, 5404, 5602, 5800, 5998, 6195] ++
  [6393, 6590, 6787, 6983, 7180, 7376, 7571, 7767, 7962, 8157, 8351, 8546, 8740, 8933, 9127, 9319] ++
  [9512, 9704, 9896, 10088, 10279, 10469, 10660, 10850, 11039, 11228, 11417, 11605, 11793, 11980, 12167, 12354]

/-- Q[64] to Q[127]. -/
def quarterWave64 : List Int :=
  [12540, 12725, 12910, 13095, 13279, 13463, 13646, 13828, 14010, 14192, 14373, 14553, 14733, 14912, 15091, 15269] ++
  [15447, 15624, 15800, 15976, 16151, 16326, 16500, 16673, 16846, 17018, 17190, 17361, 17531, 17700, 17869, 18037] ++
  [18205, 18372, 18538, 18703, 18868, 19032, 19195, 19358, 19520, 19681, 19841, 20001, 20160, 20318, 20475, 20632] ++
  [20788, 20943, 21097, 21251, 21403, 21555, 21706, 21856, 22006, 22154, 22302, 22449, 22595, 22740, 22884, 23028]

/-- Q[128] to Q[191]. -/
def quarterWave128 : List Int :=
  [23170, 23312, 23453, 23593, 23732, 23870, 24008, 24144, 24279, 24414, 24548, 24680, 24812, 24943, 25073, 25202] ++
  [25330, 25457, 25583, 25708, 25833, 25956, 26078, 26199, 26320, 26439, 26557, 26674, 26791, 26906, 27020, 27133] ++
  [27246, 27357, 27467, 27576, 27684, 27791, 27897, 28002, 28106, 28209, 28311, 28411, 28511, 28610, 28707, 28803] ++
  [28899, 28993, 29086, 29178, 29269, 29359, 29448, 29535, 29622, 29707, 29792, 29875, 29957, 30038, 30118, 30196]

/-- Q[192] to Q[255]. -/
def quarterWave192 : List Int :=
  [30274, 30350, 30425, 30499, 30572, 30644, 30715, 30784, 30853, 30920, 30986, 31050, 31114, 31177, 31238, 31298] ++
  [31357, 31415, 31471, 31527, 31581, 31634, 31686, 31737, 31786, 31834, 31881, 31927, 31972, 32015, 32058, 32099] ++
  [32138, 32177, 32214, 32251, 32286, 32319, 32352, 32383, 32413, 32442, 32470, 32496, 32522, 32546, 32568, 32590] ++
  [32610, 32629, 32647, 32664, 32679, 32693, 32706, 32718, 32729, 32738, 32746, 32753, 32758, 32762, 32766, 32767]

/-- Q[0] to Q[256] (R184); the entries are normative. -/
def quarterWave : List Int :=
  quarterWave0 ++ quarterWave64 ++ quarterWave128 ++ quarterWave192 ++ [32768]

/-- Q[k]. -/
def quarterSine (k : Nat) : Int := quarterWave.getD k 0

/-- The table index of a phase, its top 10 bits: emod(v, P) >> 21 (R183). -/
def sineIndex (v : Int) : Nat := (emod v Config.turn / 2097152).toNat

/-- The folding of a table index 0 to 1023 onto the quarter wave (R183). -/
def foldedSine (idx : Nat) : Int :=
  let q := idx / 256
  let k := idx % 256
  if q = 0 then quarterSine k
  else if q = 1 then quarterSine (256 - k)
  else if q = 2 then -quarterSine k
  else -quarterSine (256 - k)

/-- SinLUT(v) (R183): no interpolation. -/
def sinLut (v : Int) : Int := foldedSine (sineIndex v)

/-- SINE (R182). -/
def evalSine (v a : Int) : Int := a * sinLut v

/-- SQUARE (R187): the signed phase against the raw duty threshold. -/
def evalSquare (v d a : Int) : Int := if v < d then a * Config.qOne else -(a * Config.qOne)

/-- The evaluator's copy of the duty threshold of a TRIANGLE, d' = clamp(d, 1, P - 1) (R188). -/
def clampedDuty (d : Int) : Int := clamp d 1 (Config.turn - 1)

/-- TRIANGLE (R188): each branch divides toward zero. -/
def evalTriangle (v d a : Int) : Int :=
  let d' := clampedDuty d
  if v < d' then tdiv (a * Config.qOne * (2 * v - d')) d'
  else tdiv (a * Config.qOne * (Config.turn + d' - 2 * v)) (Config.turn - d')

/-- Eval(kind, v, d, A) (R180, R181; SILENT is R189). -/
def eval (kind : Kind) (v d a : Int) : Int :=
  match kind with
  | .sine => evalSine v a
  | .square => evalSquare v d a
  | .triangle => evalTriangle v d a
  | .silent => 0

end Sys2Proof.Machine
end

