-- ==== Sys2Proof/Machine/Mixer.lean ====
section
/-! DEFINITION. The channel summer and the frame word (43_mixer_sequencer.md R210 to R213). -/

namespace Sys2Proof.Machine

/-- The contribution of one slot under a kind (R211, 42_waveform.md R180). -/
def Slot.contribution (kind : Kind) (sl : Slot) : Int :=
  eval kind (s32 sl.phase) (u32 sl.duty) sl.amp.toNat

/-- The Left slots, 0 to NLEFT - 1 (R210). -/
def Block.leftSlots (b : Block) : List Slot := b.slots.take b.nleft.toNat

/-- The Right slots, NLEFT to NA - 1 (R210). -/
def Block.rightSlots (b : Block) : List Slot := b.activeSlots.drop b.nleft.toNat

/-- The exact sum of a set of slots under a kind, in Q15 (R211). -/
def channelSum (kind : Kind) (slots : List Slot) : Int := (slots.map (Slot.contribution kind)).sum

/-- Narrowing with saturation (R212). -/
def narrow (sum : Int) : Int := sat16 (tdiv sum Config.qOne)

def Block.leftSample (b : Block) : Int := narrow (channelSum b.lkind b.leftSlots)

def Block.rightSample (b : Block) : Int := narrow (channelSum b.rkind b.rightSlots)

/-- The frame word: Left in bits [15:0], Right in bits [31:16] (R213). -/
def frameWord (l r : Int) : Word := (bits16 r ++ bits16 l : BitVec (16 + 16))

end Sys2Proof.Machine
end

