-- ==== Sys2Proof/Machine/Sequencer.lean ====
section
/-! DEFINITION. The frame sequencer: the SEQ agent's FRAME_STEP (43_mixer_sequencer.md R214), and the sink
port's outputs (10_state.md R40). -/

namespace Sys2Proof.Machine

/-- The effect of FRAME_STEP on the block: both samples from the pre-tick phases, one frame word, one
tick, one count, and DRAIN when the block is full (R214). -/
def Block.frameStep (b : Block) : Block :=
  let b' := (b.writeFrame b.frameCnt.toNat (frameWord b.leftSample b.rightSample)).tick
  { b' with
    frameCnt := b.frameCnt + 1#13
    seq := if b.frameCnt + 1#13 = b.len then .drain else b.seq }

/-- FRAME_STEP as a step. BUF[FRAMECNT] must exist, which it does in every state of a run (log 9). -/
def State.frameStep (s : State) : Host.Outcome State Fault Refusal :=
  if s.block.frameCnt.toNat < Config.bufFrames then s.finish s.block.frameStep .none
  else .fault .frameIndexOutsideBuffer

/-- A turn of SEQ: FRAME_STEP is enabled exactly in FILL (R214); otherwise SEQ waits and nothing moves
(R220; log 2). -/
def State.seqTurn (s : State) : Host.Outcome State Fault Refusal :=
  if s.block.seq = .fill then s.frameStep else s.finish s.block .none

/-- `blk_valid` (10_state.md R40). -/
def Block.blkValid (b : Block) : Bool := decide (b.seq = .drain)

/-- `blk_len` (10_state.md R40). -/
def Block.blkLen (b : Block) : BitVec 13 := b.len

/-- `rd_data` for the sink's `rd_addr` (10_state.md R40). -/
def Block.rdData (b : Block) (rdAddr : BitVec 12) : Word := b.readFrame rdAddr.toNat

end Sys2Proof.Machine
end

