-- ==== Sys2Proof/Machine/Reads.lean ====
section
/-! DEFINITION. The host reads (40_config_and_commands.md R131 to R138) and BUS_ERR (R139). -/

namespace Sys2Proof.Machine

/-- RD_ID (R131). -/
def execRdId (s : State) : Host.Outcome State Fault Refusal := s.answerRead Config.idValue

/-- RD_STATUS (R132); no flag is cleared by the read. -/
def execRdStatus (s : State) : Host.Outcome State Fault Refusal := s.answerRead (statusImage s.block)

/-- RD_CMD (R133): zero, and no command is executed. -/
def execRdCmd (s : State) : Host.Outcome State Fault Refusal := s.answerRead 0#32

/-- RD_CHCFG (R134). -/
def execRdChcfg (s : State) : Host.Outcome State Fault Refusal := s.answerRead (chcfgImage s.block)

/-- RD_NOSC (R134). -/
def execRdNosc (s : State) : Host.Outcome State Fault Refusal := s.answerRead (noscImage s.block)

/-- RD_BLKLEN (R134). -/
def execRdBlklen (s : State) : Host.Outcome State Fault Refusal := s.answerRead (blklenImage s.block)

/-- RD_FRAMECNT (R135). -/
def execRdFramecnt (s : State) : Host.Outcome State Fault Refusal :=
  s.answerRead (framecntImage s.block)

/-- RD_BLKCNT (R135). -/
def execRdBlkcnt (s : State) : Host.Outcome State Fault Refusal := s.answerRead s.block.blkCnt

/-- RD_ERRINFO (R135). -/
def execRdErrinfo (s : State) : Host.Outcome State Fault Refusal :=
  s.answerRead (errinfoImage s.block)

/-- RD_PINC (R136). -/
def execRdPinc (i : BitVec 6) (s : State) : Host.Outcome State Fault Refusal :=
  s.readSlot i fun sl => sl.pinc

/-- RD_PINIT (R136). -/
def execRdPinit (i : BitVec 6) (s : State) : Host.Outcome State Fault Refusal :=
  s.readSlot i fun sl => sl.pinit

/-- RD_DUTY (R136). -/
def execRdDuty (i : BitVec 6) (s : State) : Host.Outcome State Fault Refusal :=
  s.readSlot i fun sl => sl.duty

/-- RD_AMP (R136). -/
def execRdAmp (i : BitVec 6) (s : State) : Host.Outcome State Fault Refusal :=
  s.readSlot i ampImage

/-- RD_PHASE (R137): the live phase, in every state. -/
def execRdPhase (i : BitVec 6) (s : State) : Host.Outcome State Fault Refusal :=
  s.readSlot i fun sl => sl.phase

/-- RD_BUF (R138): the frame word as it stands. -/
def execRdBuf (k : BitVec 12) (s : State) : Host.Outcome State Fault Refusal :=
  s.answerRead (s.block.readFrame k.toNat)

/-- BUS_ERR (R139). -/
def execBusErr (we : Bool) (s : State) : Host.Outcome State Fault Refusal := s.busError we

end Sys2Proof.Machine
end

