-- ==== Sys2Proof/Machine/Sink.lean ====
section
/-! DEFINITION. The sink port's operations (43_mixer_sequencer.md R216 to R219). -/

namespace Sys2Proof.Machine

/-- SINK_READ (R216): enabled in every state, and the word as it stands. -/
def execSinkRead (k : BitVec 12) (s : State) : Host.Outcome State Fault Refusal :=
  s.finish s.block (.sinkData (s.block.rdData k))

/-- A sink answer has an effect in DRAIN only; elsewhere it changes nothing (R219). -/
def State.sinkAnswer (s : State) (f : Block → Block) : Host.Outcome State Fault Refusal :=
  s.finish (if s.block.seq = .drain then f s.block else s.block) .none

/-- The sink took the whole block: next block, phases as they are (R217; 41_phase_bank.md R167). -/
def Block.acceptBlock (b : Block) : Block :=
  { b with blkCnt := b.blkCnt + 1#32, frameCnt := 0#13, seq := .fill }

/-- SINK_DONE(n) (R217): a count other than LEN, short or long, is fatal. -/
def execSinkDone (n : BitVec 13) (s : State) : Host.Outcome State Fault Refusal :=
  s.sinkAnswer fun b =>
    if n = b.len then b.acceptBlock else b.setSinkErr.raiseHalt .sinkShort 0#6 n

/-- SINK_ERROR (R218); N is ignored (30_encoding.md R108). -/
def execSinkError (_n : BitVec 13) (s : State) : Host.Outcome State Fault Refusal :=
  s.sinkAnswer fun b => b.setSinkErr.raiseHalt .sinkErr 0#6 0#13

end Sys2Proof.Machine
end

