-- ==== Sys2Proof/Machine/Writes.lean ====
section
/-! DEFINITION. The host writes: the configuration writes behind the gate of R121
(40_config_and_commands.md R122 to R126) and the writes that change nothing (R130). WR_CMD is in
Commands.lean. -/

namespace Sys2Proof.Machine

/-! ## Configuration writes -/

/-- WR_CHCFG (R122). -/
def execWrChcfg (wdata : Word) (s : State) : Host.Outcome State Fault Refusal :=
  s.configWrite fun b => { b with lkind := wdataLkind wdata, rkind := wdataRkind wdata }

/-- WR_NOSC (R123). -/
def execWrNosc (wdata : Word) (s : State) : Host.Outcome State Fault Refusal :=
  s.configWrite fun b => { b with nleft := wdataNleft wdata, nright := wdataNright wdata }

/-- WR_BLKLEN (R124). -/
def execWrBlklen (wdata : Word) (s : State) : Host.Outcome State Fault Refusal :=
  s.configWrite fun b => { b with len := wdataLen wdata }

/-- WR_PINC (R125). -/
def execWrPinc (i : BitVec 6) (wdata : Word) (s : State) : Host.Outcome State Fault Refusal :=
  s.writeSlot i fun sl => { sl with pinc := wdata }

/-- WR_PINIT (R125). -/
def execWrPinit (i : BitVec 6) (wdata : Word) (s : State) : Host.Outcome State Fault Refusal :=
  s.writeSlot i fun sl => { sl with pinit := wdata }

/-- WR_DUTY (R125). -/
def execWrDuty (i : BitVec 6) (wdata : Word) (s : State) : Host.Outcome State Fault Refusal :=
  s.writeSlot i fun sl => { sl with duty := wdata }

/-- WR_AMP (R126). -/
def execWrAmp (i : BitVec 6) (wdata : Word) (s : State) : Host.Outcome State Fault Refusal :=
  s.writeSlot i fun sl => { sl with amp := wdataAmp wdata }

/-! ## Writes that change nothing (R130) -/

/-- WR_ID (R130). -/
def execWrId (_wdata : Word) (s : State) : Host.Outcome State Fault Refusal := s.discardWrite

/-- WR_STATUS (R130). -/
def execWrStatus (_wdata : Word) (s : State) : Host.Outcome State Fault Refusal := s.discardWrite

/-- WR_FRAMECNT (R130). -/
def execWrFramecnt (_wdata : Word) (s : State) : Host.Outcome State Fault Refusal := s.discardWrite

/-- WR_BLKCNT (R130). -/
def execWrBlkcnt (_wdata : Word) (s : State) : Host.Outcome State Fault Refusal := s.discardWrite

/-- WR_ERRINFO (R130). -/
def execWrErrinfo (_wdata : Word) (s : State) : Host.Outcome State Fault Refusal := s.discardWrite

/-- WR_PHASE (R130): it does not move the phase. A slot that does not exist is unmapped (log 8). -/
def execWrPhase (i : BitVec 6) (_wdata : Word) (s : State) : Host.Outcome State Fault Refusal :=
  match s.block.slot? i with
  | some _ => s.discardWrite
  | none => s.busError true

/-- WR_BUF (R130): BUF is read-only to the host. -/
def execWrBuf (_k : BitVec 12) (_wdata : Word) (s : State) : Host.Outcome State Fault Refusal :=
  s.discardWrite

end Sys2Proof.Machine
end

