-- ==== Sys2Proof/Machine/Dispatch.lean ====
section
/-! DEFINITION. The meaning of each operation: one arm per constructor of `Instr`. -/

namespace Sys2Proof.Machine

def exec (i : Instr) (s : State) : Host.Outcome State Fault Refusal :=
  match i with
  | .rdId => Sys2Proof.Machine.execRdId s
  | .wrId wdata => Sys2Proof.Machine.execWrId wdata s
  | .rdStatus => Sys2Proof.Machine.execRdStatus s
  | .wrStatus wdata => Sys2Proof.Machine.execWrStatus wdata s
  | .rdCmd => Sys2Proof.Machine.execRdCmd s
  | .wrCmd wdata => Sys2Proof.Machine.execWrCmd wdata s
  | .rdChcfg => Sys2Proof.Machine.execRdChcfg s
  | .wrChcfg wdata => Sys2Proof.Machine.execWrChcfg wdata s
  | .rdNosc => Sys2Proof.Machine.execRdNosc s
  | .wrNosc wdata => Sys2Proof.Machine.execWrNosc wdata s
  | .rdBlklen => Sys2Proof.Machine.execRdBlklen s
  | .wrBlklen wdata => Sys2Proof.Machine.execWrBlklen wdata s
  | .rdFramecnt => Sys2Proof.Machine.execRdFramecnt s
  | .wrFramecnt wdata => Sys2Proof.Machine.execWrFramecnt wdata s
  | .rdBlkcnt => Sys2Proof.Machine.execRdBlkcnt s
  | .wrBlkcnt wdata => Sys2Proof.Machine.execWrBlkcnt wdata s
  | .rdErrinfo => Sys2Proof.Machine.execRdErrinfo s
  | .wrErrinfo wdata => Sys2Proof.Machine.execWrErrinfo wdata s
  | .rdPinc slot => Sys2Proof.Machine.execRdPinc slot s
  | .wrPinc slot wdata => Sys2Proof.Machine.execWrPinc slot wdata s
  | .rdPinit slot => Sys2Proof.Machine.execRdPinit slot s
  | .wrPinit slot wdata => Sys2Proof.Machine.execWrPinit slot wdata s
  | .rdDuty slot => Sys2Proof.Machine.execRdDuty slot s
  | .wrDuty slot wdata => Sys2Proof.Machine.execWrDuty slot wdata s
  | .rdAmp slot => Sys2Proof.Machine.execRdAmp slot s
  | .wrAmp slot wdata => Sys2Proof.Machine.execWrAmp slot wdata s
  | .rdPhase slot => Sys2Proof.Machine.execRdPhase slot s
  | .wrPhase slot wdata => Sys2Proof.Machine.execWrPhase slot wdata s
  | .rdBuf k => Sys2Proof.Machine.execRdBuf k s
  | .wrBuf k wdata => Sys2Proof.Machine.execWrBuf k wdata s
  | .busErr we _ => Sys2Proof.Machine.execBusErr we s
  | .nop => Sys2Proof.Machine.execNop s
  | .start => Sys2Proof.Machine.execStart s
  | .softreset => Sys2Proof.Machine.execSoftreset s
  | .clear => Sys2Proof.Machine.execClear s
  | .cmdRsvd w => Sys2Proof.Machine.execCmdRsvd w s
  | .sinkRead k => Sys2Proof.Machine.execSinkRead k s
  | .sinkDone n => Sys2Proof.Machine.execSinkDone n s
  | .sinkError n => Sys2Proof.Machine.execSinkError n s

end Sys2Proof.Machine
end

