-- ==== Sys2Proof/Machine/Step.lean ====
section
/-! DEFINITION. One step of the machine: the next entry of the agenda, or SEQ's turn when no other agent
acts (20_memory.md R80, R81; log 1, log 2). -/

namespace Sys2Proof.Machine

def step (s : State) : Host.Outcome State Fault Refusal :=
  match s.agenda with
  | [] => s.seqTurn
  | .seq :: rest => State.seqTurn { s with agenda := rest }
  | .rst :: rest => State.hardReset { s with agenda := rest }
  | .request r :: rest => exec (decode s.block.numOsc r) { s with agenda := rest }

/-- `s` with the request of an opcode-table word as the next entry of its agenda, where `step` takes its
next operation; unchanged if the word is of no format (log 10). -/
def State.withFetchWord (s : State) (nbits w : Nat) : State :=
  match tableRequest nbits w with
  | some r => { s with agenda := .request r :: s.agenda }
  | none => s

end Sys2Proof.Machine
end

