-- ==== Sys2Proof/Safety.lean ====
section
/-! DEFINITION. What the states of a run have in common (the invariant), and what a safe run is. -/

namespace Sys2Proof.Machine

/-- The ranges START requires of an active slot (40_config_and_commands.md R145, codes 3 to 6). -/
abbrev Slot.Legal (sl : Slot) : Prop :=
  sl.pinc.toNat ≤ Config.pincMax ∧ sl.amp.toNat ≤ Config.ampMax ∧
    sl.pinit ≠ Config.pinitIllegal ∧ sl.duty.toNat ≤ Config.dutyMax

/-- A configuration START accepts (R145). -/
abbrev Block.ConfigLegal (b : Block) : Prop :=
  b.numActive ≤ b.numOsc ∧ 1 ≤ b.len.toNat ∧ b.len.toNat ≤ Config.bufFrames ∧
    ∀ sl ∈ b.activeSlots, sl.Legal

/-- No fatal error since the last reset (60_exceptions.md R244). -/
abbrev Block.NoError (b : Block) : Prop :=
  b.cfgErr = false ∧ b.sinkErr = false ∧
    b.errInfo = { code := .none, osc := 0#6, written := 0#13 }

/-- Nothing synthesised since the last reset: both counters and every phase 0. -/
abbrev Block.AtRest (b : Block) : Prop :=
  b.frameCnt = 0#13 ∧ b.blkCnt = 0#32 ∧ ∀ sl ∈ b.slots, sl.phase = 0#32

/-- Started with a legal configuration; the inactive slots rest at phase 0 (41_phase_bank.md R161, R162). -/
abbrev Block.Started (b : Block) : Prop :=
  b.ConfigLegal ∧ ∀ sl ∈ b.slots.drop b.numActive, sl.phase = 0#32

/-- HALT after a rejected START: ERRINFO names the first failing check, and nothing ran (R141, R145). -/
abbrev Block.ConfigHalt (b : Block) : Prop :=
  b.cfgErr = true ∧ b.sinkErr = false ∧ b.AtRest ∧
    b.validate = some (b.errInfo.code, b.errInfo.osc) ∧ b.errInfo.written = 0#13

/-- HALT after a sink failure in DRAIN: code 7, or code 8 with a count other than LEN
(43_mixer_sequencer.md R217, R218). -/
abbrev Block.SinkHalt (b : Block) : Prop :=
  b.cfgErr = false ∧ b.sinkErr = true ∧ b.Started ∧ b.frameCnt = b.len ∧ b.errInfo.osc = 0#6 ∧
    ((b.errInfo.code = .sinkErr ∧ b.errInfo.written = 0#13) ∨
      (b.errInfo.code = .sinkShort ∧ b.errInfo.written ≠ b.len))

/-- What holds in every state of a run: NUM_OSC in 1 to 64 (00_scope.md R6), BUF in canonical form, every
PHASE in -P+1 to P-1 (10_state.md R36), and in each sequencer state what the spec says of it (R23,
R27, R28, R29). -/
abbrev Block.Inv (b : Block) : Prop :=
  1 ≤ b.numOsc ∧ b.numOsc ≤ Config.numOscMax ∧ b.buf.wf = true ∧
    (∀ sl ∈ b.slots, sl.phase ≠ 0x80000000#32) ∧
    (b.seq = .idle → b.NoError ∧ b.AtRest) ∧
    (b.seq = .fill → b.NoError ∧ b.Started ∧ b.frameCnt.toNat < b.len.toNat) ∧
    (b.seq = .drain → b.NoError ∧ b.Started ∧ b.frameCnt = b.len) ∧
    (b.seq = .halt → b.ConfigHalt ∨ b.SinkHalt)

/-- The invariant of a state is that of its block: the response and the agenda are free. -/
abbrev State.Inv (s : State) : Prop := s.block.Inv

/-- A safe run: no number of steps ends in a fault or a refusal. -/
def State.NeverStops (s : State) : Prop := ∀ k : Nat, ∃ t, Sys2Proof.core.run k s = .next t

end Sys2Proof.Machine
end

