-- ==== Sys2Proof/Certificates/Slice0/Obligations.lean ====
section
/-! DEFINITION. The statements about the model, from the numbered rules of spec/. Each docstring names the
rules; what a statement takes from a choice of the model it says with the log entry's number. -/

open Sys2Proof Sys2Proof.Machine

/-! ## Words the statements use -/

namespace Sys2Proof.Claims

/-- The operation the next step decodes, when a request is next on the agenda. -/
def nextInstr (s : State) : Option Instr :=
  match s.agenda with
  | .request r :: _ => some (decode s.block.numOsc r)
  | _ => none

/-- The next step is SEQ's: its turn on the agenda, or no other agent acts (log 2). -/
def SeqActs (s : State) : Prop := s.agenda = [] ∨ s.agenda.head? = some .seq

/-- The next step is a reset: the hard reset input, or SOFTRESET as a command or carried by WR_CMD. -/
def Resets (s : State) : Prop :=
  s.agenda.head? = some .rst ∨ nextInstr s = some .softreset ∨ nextInstr s = some (.wrCmd 2#32)

/-- The next step is START, as a command or carried by WR_CMD. -/
def Starts (s : State) : Prop := nextInstr s = some .start ∨ nextInstr s = some (.wrCmd 1#32)

/-- The next step is CLEAR, as a command or carried by WR_CMD. -/
def Clears (s : State) : Prop := nextInstr s = some .clear ∨ nextInstr s = some (.wrCmd 3#32)

/-- The next step is an answer of the sink. -/
def SinkAnswers (s : State) : Prop :=
  ∃ n, nextInstr s = some (.sinkDone n) ∨ nextInstr s = some (.sinkError n)

/-- A host read of any address, or a sink read. -/
def isRead : Instr → Bool
  | .rdId | .rdStatus | .rdCmd | .rdChcfg | .rdNosc | .rdBlklen => true
  | .rdFramecnt | .rdBlkcnt | .rdErrinfo => true
  | .rdPinc _ | .rdPinit _ | .rdDuty _ | .rdAmp _ | .rdPhase _ => true
  | .rdBuf _ | .sinkRead _ => true
  | .busErr false _ => true
  | _ => false

/-- A write to one of the configuration registers of R121. -/
def isConfigWrite : Instr → Bool
  | .wrChcfg _ | .wrNosc _ | .wrBlklen _ => true
  | .wrPinc _ _ | .wrPinit _ _ | .wrDuty _ _ | .wrAmp _ _ => true
  | _ => false

/-- A write to a read-only location, R77 and R130. -/
def isReadOnlyWrite : Instr → Bool
  | .wrId _ | .wrStatus _ | .wrFramecnt _ | .wrBlkcnt _ | .wrErrinfo _ => true
  | .wrPhase _ _ | .wrBuf _ _ => true
  | _ => false

/-- The kind codes of 10_state.md R24. -/
def kindNumber : Kind → Nat
  | .sine => 0
  | .square => 1
  | .triangle => 2
  | .silent => 3

/-- The request of a row of a global register: WE and ADDR. -/
def globalReq (we : BitVec 1) (addr : BitVec 16) : BitVec 17 := (we ++ addr : BitVec (1 + 16))

/-- The request of a row of a slot field, WE 0000 1iii iiif ffff. -/
def slotReq (we : BitVec 1) (i : BitVec 6) (offset : BitVec 5) : BitVec 17 :=
  (we ++ 1#5 ++ i ++ offset : BitVec (1 + 5 + 6 + 5))

/-- The request of a row of the buffer window, WE 01kk kkkk kkkk kk00. -/
def bufReq (we : BitVec 1) (k : BitVec 12) : BitVec 17 :=
  (we ++ 1#2 ++ k ++ 0#2 : BitVec (1 + 2 + 12 + 2))

/-- The configuration of a block: everything a configuration write of R121 can write. -/
def configuration (b : Block) :
    Kind × Kind × BitVec 7 × BitVec 7 × BitVec 13 × List (Word × Word × Word × BitVec 16) :=
  (b.lkind, b.rkind, b.nleft, b.nright, b.len,
    b.slots.map fun sl => (sl.pinc, sl.pinit, sl.duty, sl.amp))

/-- A BUS row of opcode_table.json: match, mask, whether the condition i < NUM_OSC applies, operation. -/
structure BusRow where
  bits : BitVec 17
  mask : BitVec 17
  needsSlot : Bool
  op : Instr

/-- The rows of the global registers, in the table's order, for write data `w`. -/
def globalRows (w : Word) : List BusRow :=
  [⟨0x00000#17, 0x1FFFF#17, false, .rdId⟩, ⟨0x10000#17, 0x1FFFF#17, false, .wrId w⟩,
   ⟨0x00004#17, 0x1FFFF#17, false, .rdStatus⟩, ⟨0x10004#17, 0x1FFFF#17, false, .wrStatus w⟩,
   ⟨0x00008#17, 0x1FFFF#17, false, .rdCmd⟩, ⟨0x10008#17, 0x1FFFF#17, false, .wrCmd w⟩,
   ⟨0x0000C#17, 0x1FFFF#17, false, .rdChcfg⟩, ⟨0x1000C#17, 0x1FFFF#17, false, .wrChcfg w⟩,
   ⟨0x00010#17, 0x1FFFF#17, false, .rdNosc⟩, ⟨0x10010#17, 0x1FFFF#17, false, .wrNosc w⟩,
   ⟨0x00014#17, 0x1FFFF#17, false, .rdBlklen⟩, ⟨0x10014#17, 0x1FFFF#17, false, .wrBlklen w⟩,
   ⟨0x00018#17, 0x1FFFF#17, false, .rdFramecnt⟩, ⟨0x10018#17, 0x1FFFF#17, false, .wrFramecnt w⟩,
   ⟨0x0001C#17, 0x1FFFF#17, false, .rdBlkcnt⟩, ⟨0x1001C#17, 0x1FFFF#17, false, .wrBlkcnt w⟩,
   ⟨0x00020#17, 0x1FFFF#17, false, .rdErrinfo⟩, ⟨0x10020#17, 0x1FFFF#17, false, .wrErrinfo w⟩]

/-- The rows of the slot fields and of the buffer window, in the table's order, for slot bits `i`, frame bits
`k` and write data `w`. -/
def indexedRows (i : BitVec 6) (k : BitVec 12) (w : Word) : List BusRow :=
  [⟨0x00800#17, 0x1F81F#17, true, .rdPinc i⟩, ⟨0x10800#17, 0x1F81F#17, true, .wrPinc i w⟩,
   ⟨0x00804#17, 0x1F81F#17, true, .rdPinit i⟩, ⟨0x10804#17, 0x1F81F#17, true, .wrPinit i w⟩,
   ⟨0x00808#17, 0x1F81F#17, true, .rdDuty i⟩, ⟨0x10808#17, 0x1F81F#17, true, .wrDuty i w⟩,
   ⟨0x0080C#17, 0x1F81F#17, true, .rdAmp i⟩, ⟨0x1080C#17, 0x1F81F#17, true, .wrAmp i w⟩,
   ⟨0x00810#17, 0x1F81F#17, true, .rdPhase i⟩, ⟨0x10810#17, 0x1F81F#17, true, .wrPhase i w⟩,
   ⟨0x04000#17, 0x1C003#17, false, .rdBuf k⟩, ⟨0x14000#17, 0x1C003#17, false, .wrBuf k w⟩]

/-- The first row of the table that a request matches, else BUS_ERR (R104, R113). -/
def firstBusRow (n : Nat) (req : BitVec 17) (w : Word) : Instr :=
  let i := req.extractLsb' 5 6
  match (globalRows w ++ indexedRows i (req.extractLsb' 2 12) w).find? fun row =>
      decide (req &&& row.mask = row.bits) && (!row.needsSlot || decide (i.toNat < n)) with
  | some row => row.op
  | none => .busErr (req.getLsbD 16) (req.extractLsb' 0 16)

/-- The contents of the sine table Q[0..256] as 42_waveform.md R184 prints them, row by row. -/
def printedTable : List Int :=
  [0, 201, 402, 603, 804, 1005, 1206, 1407, 1608, 1809, 2009, 2210, 2411, 2611, 2811, 3012] ++
  [3212, 3412, 3612, 3812, 4011, 4211, 4410, 4609, 4808, 5007, 5205, 5404, 5602, 5800, 5998, 6195] ++
  [6393, 6590, 6787, 6983, 7180, 7376, 7571, 7767, 7962, 8157, 8351, 8546, 8740, 8933, 9127, 9319] ++
  [9512, 9704, 9896, 10088, 10279, 10469, 10660, 10850, 11039, 11228, 11417, 11605, 11793, 11980, 12167, 12354] ++
  [12540, 12725, 12910, 13095, 13279, 13463, 13646, 13828, 14010, 14192, 14373, 14553, 14733, 14912, 15091, 15269] ++
  [15447, 15624, 15800, 15976, 16151, 16326, 16500, 16673, 16846, 17018, 17190, 17361, 17531, 17700, 17869, 18037] ++
  [18205, 18372, 18538, 18703, 18868, 19032, 19195, 19358, 19520, 19681, 19841, 20001, 20160, 20318, 20475, 20632] ++
  [20788, 20943, 21097, 21251, 21403, 21555, 21706, 21856, 22006, 22154, 22302, 22449, 22595, 22740, 22884, 23028] ++
  [23170, 23312, 23453, 23593, 23732, 23870, 24008, 24144, 24279, 24414, 24548, 24680, 24812, 24943, 25073, 25202] ++
  [25330, 25457, 25583, 25708, 25833, 25956, 26078, 26199, 26320, 26439, 26557, 26674, 26791, 26906, 27020, 27133] ++
  [27246, 27357, 27467, 27576, 27684, 27791, 27897, 28002, 28106, 28209, 28311, 28411, 28511, 28610, 28707, 28803] ++
  [28899, 28993, 29086, 29178, 29269, 29359, 29448, 29535, 29622, 29707, 29792, 29875, 29957, 30038, 30118, 30196] ++
  [30274, 30350, 30425, 30499, 30572, 30644, 30715, 30784, 30853, 30920, 30986, 31050, 31114, 31177, 31238, 31298] ++
  [31357, 31415, 31471, 31527, 31581, 31634, 31686, 31737, 31786, 31834, 31881, 31927, 31972, 32015, 32058, 32099] ++
  [32138, 32177, 32214, 32251, 32286, 32319, 32352, 32383, 32413, 32442, 32470, 32496, 32522, 32546, 32568, 32590] ++
  [32610, 32629, 32647, 32664, 32679, 32693, 32706, 32718, 32729, 32738, 32746, 32753, 32758, 32762, 32766, 32767] ++
  [32768]

/-- Q[k] of the printed table. -/
def printedQ (k : Int) : Int := printedTable.getD k.toNat 0

/-- The four ranges of 40_config_and_commands.md R145, the checks of codes 3 to 6 passed. -/
def WithinRanges (sl : Slot) : Prop :=
  sl.pinc.toNat ≤ 2 ^ 30 ∧ sl.amp.toNat ≤ 32767 ∧ sl.pinit ≠ 0x80000000#32 ∧ sl.duty.toNat ≤ 2 ^ 31

/-- A configuration that passes every check of R145. -/
def PassesChecks (b : Block) : Prop :=
  b.nleft.toNat + b.nright.toNat ≤ b.slots.length ∧ 1 ≤ b.len.toNat ∧ b.len.toNat ≤ 4096 ∧
    ∀ sl ∈ b.slots.take (b.nleft.toNat + b.nright.toNat), WithinRanges sl

/-- The one correction of R162 that brings an advanced phase back into (-P, P). -/
def wrapped (t : Int) : Int :=
  if t ≤ -2147483648 then t + 2147483648 else if 2147483648 ≤ t then t - 2147483648 else t

/-- The closed form of R165: the phase of frame `n` of a slot that starts at `v`. -/
def phaseAt (v inc : Int) (n : Nat) : Int :=
  if v + n * inc < 0 then v + n * inc else (v + n * inc) % 2147483648

/-- The block with the phase of every active slot moved on by `n` frames in the closed form. -/
def phasesAfter (b : Block) (n : Nat) : Block :=
  { b with slots := b.slots.mapIdx fun i sl =>
      if i < b.numActive then
        { sl with phase := BitVec.ofInt 32 (phaseAt sl.phase.toInt sl.pinc.toNat n) }
      else sl }

end Sys2Proof.Claims

open Sys2Proof.Claims

/-! ## Encoding -/

/-- 30_encoding.md R100 to R109: no operand bit is dropped by the encodings, as a request and as bytes
(the byte layout is the model's, log 10). -/
def Obligations.DecodeOfEncodeIsIdentity : Prop :=
  ∀ (n : Nat) (i : Instr), n ≤ 64 → i.wf n = true →
    decode n (encode i) = i ∧
      decodeBytes n (encode i).port (encode i).toBytes = .ok i

/-- 30_encoding.md R104 and R113: the decoder, written from the fields of R101, is the opcode table read
row by row, first matching row wins, on a block of any number of slots. -/
def Obligations.DecoderAgreesWithOpcodeTable : Prop :=
  ∀ (n : Nat) (req : BitVec 17) (wdata : Word),
    decode n (.bus req wdata) = firstBusRow n req wdata

/-- Every word of every format decodes to a well-formed operation (30_encoding.md R109; the check is the
map of 20_memory.md R71). -/
def Obligations.DecodedOperationIsWellFormed : Prop :=
  ∀ (n : Nat) (r : Request), n ≤ 64 → (decode n r).wf n = true

/-- Encoding what was decoded gives the request back: all of REQ, of a command word, of a sink index and of
a sink response; WDATA for every write but BUS_ERR, which has no operands (30_encoding.md R101, R102,
R106 to R108; log 11). -/
def Obligations.EncodeOfDecodeKeepsRequest : Prop :=
  ∀ (n : Nat), n ≤ 64 →
    (∀ (req : BitVec 17) (wdata : Word), ∃ d, encode (decode n (.bus req wdata)) = .bus req d ∧
      (req.getLsbD 16 = true →
        (∀ we addr, decode n (.bus req wdata) ≠ .busErr we addr) → d = wdata)) ∧
    (∀ w, encode (decode n (.cmd w)) = .cmd w) ∧
    (∀ k, encode (decode n (.srd k)) = .srd k) ∧
    (∀ w, encode (decode n (.srsp w)) = .srsp w)

/-- 20_memory.md R74 and R75 with the map of R71, and 40_config_and_commands.md R139: a host transaction is BUS_ERR exactly when its address is
misaligned or one of the unmapped ranges, and then it is answered ERROR (RDATA 0 for a read) with no
effect on the block. -/
def Obligations.MisalignedOrUnmappedIsError : Prop :=
  ∀ (s : State) (we : Bool) (addr : BitVec 16) (wdata : Word) (rest : List Event),
    1 ≤ s.block.numOsc → s.block.numOsc ≤ 64 →
    s.agenda =
      .request (.bus (BitVec.ofNat 17 ((if we then 0x10000 else 0) + addr.toNat)) wdata) :: rest →
    (nextInstr s = some (.busErr we addr) ↔
      addr.toNat % 4 ≠ 0 ∨
      (0x24 ≤ addr.toNat ∧ addr.toNat < 0x800) ∨
      (0x800 ≤ addr.toNat ∧ addr.toNat < 0x800 + 0x20 * s.block.numOsc ∧ 0x14 ≤ addr.toNat % 0x20) ∨
      (0x800 + 0x20 * s.block.numOsc ≤ addr.toNat ∧ addr.toNat < 0x1000) ∨
      (0x1000 ≤ addr.toNat ∧ addr.toNat < 0x4000) ∨
      0x8000 ≤ addr.toNat) ∧
    (nextInstr s = some (.busErr we addr) →
      step s = .next { s with
        resp := if we then .errorWrite else .errorRead 0#32, agenda := rest })

/-- 30_encoding.md R105, R106 and 40_config_and_commands.md R127: a write to CMD is answered OKAY and does,
in the same step, what the command its word decodes to does; a word other than the four is CMD_RSVD. -/
def Obligations.CommandWordRunsItsCommand : Prop :=
  (∀ s, exec (.wrCmd 0x00000000#32) s = exec .nop s) ∧
  (∀ s, exec (.wrCmd 0x00000001#32) s = exec .start s) ∧
  (∀ s, exec (.wrCmd 0x00000002#32) s = exec .softreset s) ∧
  (∀ s, exec (.wrCmd 0x00000003#32) s = exec .clear s) ∧
  (∀ w s, 4 ≤ w.toNat → exec (.wrCmd w) s = exec (.cmdRsvd w) s) ∧
  (∀ w s, ∃ t, exec (.wrCmd w) s = .next t ∧ t.resp = .okayWrite ∧ t.agenda = s.agenda) ∧
  (∀ n w, decode n (.bus 0x10008#17 w) = .wrCmd w) ∧
  (∀ n, decode n (.cmd 0#32) = .nop ∧ decode n (.cmd 1#32) = .start ∧
    decode n (.cmd 2#32) = .softreset ∧ decode n (.cmd 3#32) = .clear) ∧
  (∀ n w, 4 ≤ w.toNat → decode n (.cmd w) = .cmdRsvd w)

/-- Words written out from the encodings (95_test_vectors.md T-BUS, T-SNK, P1) decode to what they stand
for. -/
def Obligations.SampleWordsDecode : Prop :=
  decode 32 (.bus 0b00000000000000000#17 0#32) = .rdId ∧
  decode 32 (.bus 0b10000000000001100#17 0x0000000C#32) = .wrChcfg 0x0000000C#32 ∧
  decode 32 (.bus 0b10000100000000000#17 0x012C5F93#32) = .wrPinc 0#6 0x012C5F93#32 ∧
  decode 32 (.bus 0b00000101111100000#17 0#32) = .rdPinc 31#6 ∧
  decode 32 (.bus 0b00000110000000000#17 0#32) = .busErr false 0x0C00#16 ∧
  decode 64 (.bus 0b00000111111100000#17 0#32) = .rdPinc 63#6 ∧
  decode 32 (.bus 0b00111111111111100#17 0#32) = .rdBuf 4095#12 ∧
  decode 32 (.cmd 0x00000011#32) = .cmdRsvd 0x00000011#32 ∧
  decode 32 (.srd 7#12) = .sinkRead 7#12 ∧
  decode 32 (.srsp 0b00000000110000#14) = .sinkDone 48#13 ∧
  decode 32 (.srsp 0b10000000110000#14) = .sinkError 48#13

/-! ## One step -/

/-- A step whose next event is a request runs the operation the request decodes to, on the state without
that entry of the agenda; one whose next event is the reset input resets; any other is a turn of SEQ
(20_memory.md R80, R81; the agenda is the model's, log 1; an empty agenda is SEQ's turn, log 2). -/
def Obligations.StepRunsTheDecodedRequest : Prop :=
  ∀ (s : State),
    (∀ (r : Request) (rest : List Event), s.agenda = .request r :: rest →
      step s = exec (decode s.block.numOsc r) { s with agenda := rest }) ∧
    (∀ rest : List Event, s.agenda = .rst :: rest →
      step s = State.hardReset { s with agenda := rest }) ∧
    (SeqActs s → step s = State.seqTurn { s with agenda := s.agenda.tail })

/-- 43_mixer_sequencer.md R220 and the enabling of R214: at a turn of SEQ in IDLE, DRAIN or HALT no frame is
computed and no phase moves, so DRAIN lasts however many turns SEQ has; in FILL the turn counts a frame
(that SEQ has turns outside FILL, and the agenda, are the model's: log 1, log 2). -/
def Obligations.SeqActsExactlyInFill : Prop :=
  ∀ s : State, SeqActs s →
    (s.block.seq = .fill → s.block.frameCnt.toNat < 4096 →
      ∃ t, step s = .next t ∧ t.agenda = s.agenda.tail ∧
        t.block.frameCnt.toNat = s.block.frameCnt.toNat + 1) ∧
    (s.block.seq ≠ .fill →
      step s = .next { block := s.block, resp := .none, agenda := s.agenda.tail } ∧
      ∀ k, s.agenda = [] → ∃ t, Sys2Proof.core.run k s = .next t ∧ t.block = s.block)

/-- 70_reset_and_hazards.md R270: the hard reset input and SOFTRESET, in every state, set every register to
its reset value and leave BUF, and a sink response after it is ignored. -/
def Obligations.ResetSetsEveryRegisterAndKeepsBuf : Prop :=
  (∀ n, decode n (.cmd 2#32) = .softreset) ∧
  ∀ s : State, ∃ b : Block,
    exec .softreset s = .next { s with block := b, resp := .okayWrite } ∧
    (∃ t, s.hardReset = .next t ∧ t.block = b) ∧
    b.seq = .idle ∧ b.cfgErr = false ∧ b.sinkErr = false ∧ b.cmdErr = false ∧ b.wign = false ∧
    b.lkind = .silent ∧ b.rkind = .silent ∧ b.nleft = 0#7 ∧ b.nright = 0#7 ∧ b.len.toNat = 4096 ∧
    b.frameCnt = 0#13 ∧ b.blkCnt = 0#32 ∧
    b.errInfo = { code := .none, osc := 0#6, written := 0#13 } ∧
    b.slots.length = s.block.slots.length ∧
    (∀ sl ∈ b.slots, sl.pinc = 0#32 ∧ sl.pinit = 0#32 ∧ sl.duty = 0#32 ∧ sl.amp = 0#16 ∧
      sl.phase = 0#32) ∧
    b.buf = s.block.buf ∧
    ∀ (n : BitVec 13) (t : State), t.block = b →
      (∃ u, exec (.sinkDone n) t = .next u ∧ u.block = b) ∧
      ∃ u, exec (.sinkError n) t = .next u ∧ u.block = b

/-- 10_state.md R41 at `State.reset`, on the default 32 slots: what the reads return before anything is
written (40_config_and_commands.md R131 to R137), and nothing of BUF written. -/
def Obligations.ResetStateReadsItsResetValues : Prop :=
  let s := State.reset
  exec .rdId s = .next { s with resp := .okayRead 0x50414231#32 } ∧
  exec .rdStatus s = .next { s with resp := .okayRead 0x00000000#32 } ∧
  exec .rdChcfg s = .next { s with resp := .okayRead 0x0000000F#32 } ∧
  exec .rdNosc s = .next { s with resp := .okayRead 0x00000000#32 } ∧
  exec .rdBlklen s = .next { s with resp := .okayRead 0x00001000#32 } ∧
  exec .rdFramecnt s = .next { s with resp := .okayRead 0x00000000#32 } ∧
  exec .rdBlkcnt s = .next { s with resp := .okayRead 0x00000000#32 } ∧
  exec .rdErrinfo s = .next { s with resp := .okayRead 0x00000000#32 } ∧
  (∀ i : BitVec 6, i.toNat < 32 →
    exec (.rdPinc i) s = .next { s with resp := .okayRead 0#32 } ∧
    exec (.rdPinit i) s = .next { s with resp := .okayRead 0#32 } ∧
    exec (.rdDuty i) s = .next { s with resp := .okayRead 0#32 } ∧
    exec (.rdAmp i) s = .next { s with resp := .okayRead 0#32 } ∧
    exec (.rdPhase i) s = .next { s with resp := .okayRead 0#32 }) ∧
  ∀ a, s.block.buf.lookup a = none

/-! ## Reads -/

/-- 20_memory.md R79: no read has a side effect, so reading again gives the same state; a configuration
write in IDLE done twice leaves what it leaves once; a command is not idempotent, the second of two
STARTs sets CMD_ERR. -/
def Obligations.NoReadHasASideEffect : Prop :=
  (∀ (i : Instr) (s : State), isRead i = true →
    ∃ r, exec i s = .next { s with resp := r } ∧
      exec i { s with resp := r } = .next { s with resp := r }) ∧
  (∀ (i : Instr) (s : State), isConfigWrite i = true → s.block.seq = .idle →
    ∃ t, exec i s = .next t ∧ exec i t = .next t) ∧
  ∀ s : State, s.block.seq = .idle → s.block.cmdErr = false →
    ∃ t u, exec .start s = .next t ∧ exec .start t = .next u ∧
      t.block.cmdErr = false ∧ u.block = { t.block with cmdErr := true }

/-- 40_config_and_commands.md R131 and R133: RD_ID answers the constant, RD_CMD zero, in every state, and
nothing else happens. -/
def Obligations.IdAndCmdReadConstants : Prop :=
  (∀ n w, decode n (.bus (globalReq 0#1 0x0000#16) w) = .rdId ∧
    decode n (.bus (globalReq 0#1 0x0008#16) w) = .rdCmd) ∧
  ∀ s : State,
    exec .rdId s = .next { s with resp := .okayRead 0x50414231#32 } ∧
    exec .rdCmd s = .next { s with resp := .okayRead 0x00000000#32 }

/-- 40_config_and_commands.md R132 with the fields of 10_state.md R22, bit by bit. -/
def Obligations.StatusReadsItsFields : Prop :=
  (∀ n w, decode n (.bus (globalReq 0#1 0x0004#16) w) = .rdStatus) ∧
  ∀ s : State, ∃ v : Word, exec .rdStatus s = .next { s with resp := .okayRead v } ∧
    v.toNat % 4 = (match s.block.seq with | .idle => 0 | .fill => 1 | .drain => 2 | .halt => 3) ∧
    v.getLsbD 2 = false ∧ v.getLsbD 3 = false ∧
    v.getLsbD 4 = s.block.cfgErr ∧ v.getLsbD 5 = s.block.sinkErr ∧
    v.getLsbD 6 = s.block.cmdErr ∧ v.getLsbD 7 = s.block.wign ∧ v.toNat < 256

/-- 40_config_and_commands.md R134: the images of CHCFG, NOSC and BLKLEN as numbers, in every state. -/
def Obligations.ConfigurationReadsItsImages : Prop :=
  (∀ n w, decode n (.bus (globalReq 0#1 0x000C#16) w) = .rdChcfg ∧
    decode n (.bus (globalReq 0#1 0x0010#16) w) = .rdNosc ∧
    decode n (.bus (globalReq 0#1 0x0014#16) w) = .rdBlklen) ∧
  ∀ s : State, ∃ c n l : Word,
    exec .rdChcfg s = .next { s with resp := .okayRead c } ∧
    exec .rdNosc s = .next { s with resp := .okayRead n } ∧
    exec .rdBlklen s = .next { s with resp := .okayRead l } ∧
    c.toNat = 4 * kindNumber s.block.rkind + kindNumber s.block.lkind ∧
    n.toNat = 256 * s.block.nright.toNat + s.block.nleft.toNat ∧
    l.toNat = s.block.len.toNat

/-- 40_config_and_commands.md R135: the images of FRAMECNT, BLKCNT and ERRINFO as numbers. -/
def Obligations.CountersAndErrinfoReadTheirImages : Prop :=
  (∀ n w, decode n (.bus (globalReq 0#1 0x0018#16) w) = .rdFramecnt ∧
    decode n (.bus (globalReq 0#1 0x001C#16) w) = .rdBlkcnt ∧
    decode n (.bus (globalReq 0#1 0x0020#16) w) = .rdErrinfo) ∧
  ∀ s : State, ∃ f e : Word,
    exec .rdFramecnt s = .next { s with resp := .okayRead f } ∧
    exec .rdBlkcnt s = .next { s with resp := .okayRead s.block.blkCnt } ∧
    exec .rdErrinfo s = .next { s with resp := .okayRead e } ∧
    f.toNat = s.block.frameCnt.toNat ∧
    e.toNat = 65536 * s.block.errInfo.written.toNat + 256 * s.block.errInfo.osc.toNat +
      (match s.block.errInfo.code with
        | .none => 0 | .cfgNosc => 1 | .cfgBlklen => 2 | .cfgPinc => 3 | .cfgAmp => 4
        | .cfgPinit => 5 | .cfgDuty => 6 | .sinkErr => 7 | .sinkShort => 8)

/-- 40_config_and_commands.md R136 and R137: the fields of an existing slot, AMP zero-extended, PHASE as its
two's complement pattern. -/
def Obligations.SlotFieldsReadBack : Prop :=
  (∀ (n : Nat) (i : BitVec 6) (w : Word), i.toNat < n →
    decode n (.bus (slotReq 0#1 i 0x00#5) w) = .rdPinc i ∧
    decode n (.bus (slotReq 0#1 i 0x04#5) w) = .rdPinit i ∧
    decode n (.bus (slotReq 0#1 i 0x08#5) w) = .rdDuty i ∧
    decode n (.bus (slotReq 0#1 i 0x0C#5) w) = .rdAmp i ∧
    decode n (.bus (slotReq 0#1 i 0x10#5) w) = .rdPhase i) ∧
  ∀ (s : State) (i : BitVec 6) (sl : Slot), s.block.slots[i.toNat]? = some sl →
    exec (.rdPinc i) s = .next { s with resp := .okayRead sl.pinc } ∧
    exec (.rdPinit i) s = .next { s with resp := .okayRead sl.pinit } ∧
    exec (.rdDuty i) s = .next { s with resp := .okayRead sl.duty } ∧
    (∃ a : Word, exec (.rdAmp i) s = .next { s with resp := .okayRead a } ∧
      a.toNat = sl.amp.toNat) ∧
    exec (.rdPhase i) s = .next { s with resp := .okayRead (BitVec.ofInt 32 sl.phase.toInt) }

/-- 40_config_and_commands.md R138, 43_mixer_sequencer.md R216 and the byte order of 20_memory.md R78: the
host and the sink read the same frame word, whose byte j is the byte at 0x4000 + 4k + j. -/
def Obligations.BufferReadsLittleEndianWords : Prop :=
  (∀ n k w, decode n (.bus (bufReq 0#1 k) w) = .rdBuf k ∧ decode n (.srd k) = .sinkRead k) ∧
  ∀ (s : State) (k : BitVec 12), ∃ v : Word,
    exec (.rdBuf k) s = .next { s with resp := .okayRead v } ∧
    exec (.sinkRead k) s = .next { s with resp := .sinkData v } ∧
    ∀ j, j < 4 → v.extractLsb' (8 * j) 8 = s.block.buf.readByte (0x4000 + 4 * k.toNat + j)

/-- 10_state.md R37 and 40_config_and_commands.md R139: BUS_ERR, and any access to a slot that does not
exist, is answered ERROR and changes nothing (the slot operations reach `exec` so only when ill-formed:
log 8). -/
def Obligations.AbsentSlotIsABusError : Prop :=
  ∀ (s : State),
    (∀ addr, exec (.busErr false addr) s = .next { s with resp := .errorRead 0#32 } ∧
      exec (.busErr true addr) s = .next { s with resp := .errorWrite }) ∧
    (∀ (i : BitVec 6), s.block.slots.length ≤ i.toNat →
      (∀ op ∈ [Instr.rdPinc i, .rdPinit i, .rdDuty i, .rdAmp i, .rdPhase i],
        exec op s = .next { s with resp := .errorRead 0#32 }) ∧
      ∀ w, ∀ op ∈ [Instr.wrPinc i w, .wrPinit i w, .wrDuty i w, .wrAmp i w, .wrPhase i w],
        exec op s = .next { s with resp := .errorWrite })

/-! ## Writes -/

/-- 20_memory.md R77 and 40_config_and_commands.md R130: a write to a read-only location is answered OKAY
and changes no state; a read of CMD answers OKAY with zero and changes no state. -/
def Obligations.ReadOnlyWritesChangeNothing : Prop :=
  (∀ n w, decode n (.bus (globalReq 1#1 0x0000#16) w) = .wrId w ∧
    decode n (.bus (globalReq 1#1 0x0004#16) w) = .wrStatus w ∧
    decode n (.bus (globalReq 1#1 0x0018#16) w) = .wrFramecnt w ∧
    decode n (.bus (globalReq 1#1 0x001C#16) w) = .wrBlkcnt w ∧
    decode n (.bus (globalReq 1#1 0x0020#16) w) = .wrErrinfo w ∧
    (∀ i : BitVec 6, i.toNat < n → decode n (.bus (slotReq 1#1 i 0x10#5) w) = .wrPhase i w) ∧
    ∀ k, decode n (.bus (bufReq 1#1 k) w) = .wrBuf k w) ∧
  (∀ (i : Instr) (s : State), isReadOnlyWrite i = true → i.wf s.block.numOsc = true →
    exec i s = .next { s with resp := .okayWrite }) ∧
  ∀ s : State, exec .rdCmd s = .next { s with resp := .okayRead 0#32 }

/-- 40_config_and_commands.md R121: outside IDLE every configuration write leaves every configuration
register, and all else, sets WIGN and is answered OKAY; in IDLE it leaves WIGN and all that is not
configuration. -/
def Obligations.ConfigurationWriteGate : Prop :=
  ∀ (i : Instr) (s : State), isConfigWrite i = true → i.wf s.block.numOsc = true →
    (s.block.seq ≠ .idle →
      exec i s = .next { s with block := { s.block with wign := true }, resp := .okayWrite }) ∧
    (s.block.seq = .idle → ∃ t, exec i s = .next t ∧ t.resp = .okayWrite ∧ t.agenda = s.agenda ∧
      t.block = { s.block with
        lkind := t.block.lkind, rkind := t.block.rkind, nleft := t.block.nleft
        nright := t.block.nright, len := t.block.len, slots := t.block.slots } ∧
      t.block.slots.map Slot.phase = s.block.slots.map Slot.phase)

/-- 40_config_and_commands.md R122, R123 and R124: what WR_CHCFG, WR_NOSC and WR_BLKLEN store in IDLE, as
numbers of the write data, and WIGN outside IDLE; nothing else changes. -/
def Obligations.GlobalConfigurationWrites : Prop :=
  (∀ n w, decode n (.bus (globalReq 1#1 0x000C#16) w) = .wrChcfg w ∧
    decode n (.bus (globalReq 1#1 0x0010#16) w) = .wrNosc w ∧
    decode n (.bus (globalReq 1#1 0x0014#16) w) = .wrBlklen w) ∧
  ∀ (s : State) (w : Word),
    (s.block.seq = .idle →
      (∃ l r : Kind, kindNumber l = w.toNat % 4 ∧ kindNumber r = w.toNat / 4 % 4 ∧
        exec (.wrChcfg w) s =
          .next { s with block := { s.block with lkind := l, rkind := r }, resp := .okayWrite }) ∧
      (∃ l r : BitVec 7, l.toNat = w.toNat % 128 ∧ r.toNat = w.toNat / 256 % 128 ∧
        exec (.wrNosc w) s =
          .next { s with block := { s.block with nleft := l, nright := r }, resp := .okayWrite }) ∧
      (∃ l : BitVec 13, l.toNat = w.toNat % 8192 ∧
        exec (.wrBlklen w) s =
          .next { s with block := { s.block with len := l }, resp := .okayWrite })) ∧
    (s.block.seq ≠ .idle → ∀ i ∈ [Instr.wrChcfg w, .wrNosc w, .wrBlklen w],
      exec i s = .next { s with block := { s.block with wign := true }, resp := .okayWrite })

/-- 40_config_and_commands.md R125 and R126: what the slot writes store in the one slot they name, in IDLE,
and WIGN outside IDLE; nothing else changes. -/
def Obligations.SlotConfigurationWrites : Prop :=
  (∀ (n : Nat) (i : BitVec 6) (w : Word), i.toNat < n →
    decode n (.bus (slotReq 1#1 i 0x00#5) w) = .wrPinc i w ∧
    decode n (.bus (slotReq 1#1 i 0x04#5) w) = .wrPinit i w ∧
    decode n (.bus (slotReq 1#1 i 0x08#5) w) = .wrDuty i w ∧
    decode n (.bus (slotReq 1#1 i 0x0C#5) w) = .wrAmp i w) ∧
  ∀ (s : State) (i : BitVec 6) (w : Word) (sl : Slot), s.block.slots[i.toNat]? = some sl →
    (s.block.seq = .idle →
      exec (.wrPinc i w) s = .next { s with
        block := { s.block with slots := s.block.slots.set i.toNat { sl with pinc := w } }
        resp := .okayWrite } ∧
      exec (.wrPinit i w) s = .next { s with
        block := { s.block with slots := s.block.slots.set i.toNat { sl with pinit := w } }
        resp := .okayWrite } ∧
      exec (.wrDuty i w) s = .next { s with
        block := { s.block with slots := s.block.slots.set i.toNat { sl with duty := w } }
        resp := .okayWrite } ∧
      ∃ a : BitVec 16, a.toNat = w.toNat % 65536 ∧ exec (.wrAmp i w) s = .next { s with
        block := { s.block with slots := s.block.slots.set i.toNat { sl with amp := a } }
        resp := .okayWrite }) ∧
    (s.block.seq ≠ .idle → ∀ op ∈ [Instr.wrPinc i w, .wrPinit i w, .wrDuty i w, .wrAmp i w],
      exec op s = .next { s with block := { s.block with wign := true }, resp := .okayWrite })

/-- 20_memory.md R76: a configuration register written in IDLE reads back its own bits of what was written,
with the reserved ones zero, and the reserved bits of the other registers read as zero in every state. -/
def Obligations.WrittenConfigurationReadsBackMasked : Prop :=
  (∀ (s : State) (w : Word), s.block.seq = .idle →
    (∃ t, exec (.wrChcfg w) s = .next t ∧
      exec .rdChcfg t = .next { t with resp := .okayRead (w &&& 0x0000000F#32) }) ∧
    (∃ t, exec (.wrNosc w) s = .next t ∧
      exec .rdNosc t = .next { t with resp := .okayRead (w &&& 0x00007F7F#32) }) ∧
    (∃ t, exec (.wrBlklen w) s = .next t ∧
      exec .rdBlklen t = .next { t with resp := .okayRead (w &&& 0x00001FFF#32) }) ∧
    ∀ i : BitVec 6, i.toNat < s.block.numOsc →
      (∃ t, exec (.wrAmp i w) s = .next t ∧
        exec (.rdAmp i) t = .next { t with resp := .okayRead (w &&& 0x0000FFFF#32) }) ∧
      (∃ t, exec (.wrPinc i w) s = .next t ∧
        exec (.rdPinc i) t = .next { t with resp := .okayRead w }) ∧
      (∃ t, exec (.wrPinit i w) s = .next t ∧
        exec (.rdPinit i) t = .next { t with resp := .okayRead w }) ∧
      ∃ t, exec (.wrDuty i w) s = .next t ∧
        exec (.rdDuty i) t = .next { t with resp := .okayRead w }) ∧
  ∀ s : State,
    (∃ v : Word, exec .rdStatus s = .next { s with resp := .okayRead v } ∧
      v &&& 0xFFFFFF0C#32 = 0#32) ∧
    (∃ v : Word, exec .rdChcfg s = .next { s with resp := .okayRead v } ∧
      v &&& 0xFFFFFFF0#32 = 0#32) ∧
    (∃ v : Word, exec .rdNosc s = .next { s with resp := .okayRead v } ∧
      v &&& 0xFFFF8080#32 = 0#32) ∧
    (∃ v : Word, exec .rdBlklen s = .next { s with resp := .okayRead v } ∧
      v &&& 0xFFFFE000#32 = 0#32) ∧
    (∃ v : Word, exec .rdFramecnt s = .next { s with resp := .okayRead v } ∧
      v &&& 0xFFFFE000#32 = 0#32) ∧
    (∃ v : Word, exec .rdErrinfo s = .next { s with resp := .okayRead v } ∧
      v &&& 0xE000C0F0#32 = 0#32) ∧
    ∀ i : BitVec 6, i.toNat < s.block.numOsc →
      ∃ v : Word, exec (.rdAmp i) s = .next { s with resp := .okayRead v } ∧
        v &&& 0xFFFF0000#32 = 0#32

/-! ## Commands -/

/-- 40_config_and_commands.md R140, R143 and R144, in every state; CLEAR touches only CMD_ERR and WIGN. -/
def Obligations.NopClearAndReservedCommands : Prop :=
  (∀ n, decode n (.cmd 0#32) = .nop ∧ decode n (.cmd 3#32) = .clear ∧
    ∀ w : Word, 4 ≤ w.toNat → decode n (.cmd w) = .cmdRsvd w) ∧
  ∀ s : State,
    exec .nop s = .next { s with resp := .okayWrite } ∧
    exec .clear s = .next { s with
      block := { s.block with cmdErr := false, wign := false }, resp := .okayWrite } ∧
    ∀ w : Word, exec (.cmdRsvd w) s = .next { s with
      block := { s.block with cmdErr := true }, resp := .okayWrite }

/-- 40_config_and_commands.md R141 with PhaseLoad of 41_phase_bank.md R161: CMD_ERR and nothing else outside
IDLE; in IDLE either the error record and HALT and nothing else, or FILL with both counters 0 and every
phase loaded, PINIT in the active slots and 0 in the others. -/
def Obligations.StartFollowsItsRule : Prop :=
  (∀ n, decode n (.cmd 1#32) = .start) ∧
  ∀ s : State,
    (s.block.seq ≠ .idle →
      exec .start s = .next { s with
        block := { s.block with cmdErr := true }, resp := .okayWrite }) ∧
    (s.block.seq = .idle → ∀ code osc, s.block.validate = some (code, osc) →
      exec .start s = .next { s with
        block := { s.block with
          cfgErr := true, seq := .halt, errInfo := { code := code, osc := osc, written := 0#13 } }
        resp := .okayWrite }) ∧
    (s.block.seq = .idle → s.block.validate = none →
      ∃ slots : List Slot,
        exec .start s = .next { s with
          block := { s.block with seq := .fill, frameCnt := 0#13, blkCnt := 0#32, slots := slots }
          resp := .okayWrite } ∧
        slots.length = s.block.slots.length ∧
        ∀ (j : Nat) (sl : Slot), s.block.slots[j]? = some sl →
          slots[j]? = some { sl with
            phase := if j < s.block.nleft.toNat + s.block.nright.toNat then sl.pinit else 0#32 })

/-- 40_config_and_commands.md R145 and 60_exceptions.md R245: the check Validate reports is the first that
fails, in the order code 1, code 2, then per active slot in ascending index the codes 3, 4, 5, 6; and it
reports none when all pass. -/
def Obligations.ValidateReportsTheFirstFailingCheck : Prop :=
  ∀ b : Block, b.numOsc ≤ 64 →
    (b.numOsc < b.nleft.toNat + b.nright.toNat → b.validate = some (.cfgNosc, 0#6)) ∧
    (b.nleft.toNat + b.nright.toNat ≤ b.numOsc →
      ((b.len.toNat < 1 ∨ 4096 < b.len.toNat) → b.validate = some (.cfgBlklen, 0#6)) ∧
      (1 ≤ b.len.toNat → b.len.toNat ≤ 4096 →
        (∀ (j : Nat) (sl : Slot), j < b.nleft.toNat + b.nright.toNat → b.slots[j]? = some sl →
          (∀ (k : Nat) (e : Slot), k < j → b.slots[k]? = some e → WithinRanges e) →
          (2 ^ 30 < sl.pinc.toNat →
            ∃ o : BitVec 6, o.toNat = j ∧ b.validate = some (.cfgPinc, o)) ∧
          (sl.pinc.toNat ≤ 2 ^ 30 → 32767 < sl.amp.toNat →
            ∃ o : BitVec 6, o.toNat = j ∧ b.validate = some (.cfgAmp, o)) ∧
          (sl.pinc.toNat ≤ 2 ^ 30 → sl.amp.toNat ≤ 32767 → sl.pinit = 0x80000000#32 →
            ∃ o : BitVec 6, o.toNat = j ∧ b.validate = some (.cfgPinit, o)) ∧
          (sl.pinc.toNat ≤ 2 ^ 30 → sl.amp.toNat ≤ 32767 → sl.pinit ≠ 0x80000000#32 →
            2 ^ 31 < sl.duty.toNat →
            ∃ o : BitVec 6, o.toNat = j ∧ b.validate = some (.cfgDuty, o))) ∧
        ((∀ (j : Nat) (sl : Slot), j < b.nleft.toNat + b.nright.toNat → b.slots[j]? = some sl →
          WithinRanges sl) → b.validate = none)))

/-- START runs exactly the configurations inside the ranges of 40_config_and_commands.md R145: from IDLE it
goes to FILL when they hold and to HALT with CFG_ERR when they do not. -/
def Obligations.StartRunsExactlyLegalConfigurations : Prop :=
  ∀ s : State, s.block.seq = .idle →
    (PassesChecks s.block → ∃ t, exec .start s = .next t ∧ t.block.seq = .fill ∧
      t.block.cfgErr = s.block.cfgErr ∧ t.block.errInfo = s.block.errInfo) ∧
    (¬ PassesChecks s.block → ∃ t, exec .start s = .next t ∧ t.block.seq = .halt ∧
      t.block.cfgErr = true ∧ t.block.errInfo.code ≠ .none)

/-! ## The sink -/

/-- 43_mixer_sequencer.md R217: SINK_DONE(n) outside DRAIN changes nothing; in DRAIN the full count returns
to FILL with one more block, and any other count enters HALT with code 8 and the count (`.none`: a sink
response is not answered). -/
def Obligations.SinkDoneFollowsItsRule : Prop :=
  (∀ m n, decode m (.srsp (0#1 ++ n : BitVec (1 + 13))) = .sinkDone n) ∧
  ∀ (s : State) (n : BitVec 13),
    (s.block.seq ≠ .drain → exec (.sinkDone n) s = .next { s with resp := .none }) ∧
    (s.block.seq = .drain → n = s.block.len →
      exec (.sinkDone n) s = .next { s with
        block := { s.block with
          blkCnt := BitVec.ofNat 32 (s.block.blkCnt.toNat + 1), frameCnt := 0#13, seq := .fill }
        resp := .none }) ∧
    (s.block.seq = .drain → n ≠ s.block.len →
      exec (.sinkDone n) s = .next { s with
        block := { s.block with
          sinkErr := true, seq := .halt
          errInfo := { code := .sinkShort, osc := 0#6, written := n } }
        resp := .none })

/-- 43_mixer_sequencer.md R218 and R219: SINK_ERROR enters HALT with code 7 in DRAIN, whatever N; elsewhere
it and SINK_DONE change nothing (`.none`: a sink response is not answered). -/
def Obligations.SinkErrorFollowsItsRule : Prop :=
  (∀ m n, decode m (.srsp (1#1 ++ n : BitVec (1 + 13))) = .sinkError n) ∧
  ∀ (s : State) (n : BitVec 13),
    (s.block.seq ≠ .drain →
      exec (.sinkError n) s = .next { s with resp := .none } ∧
      exec (.sinkDone n) s = .next { s with resp := .none }) ∧
    (s.block.seq = .drain →
      exec (.sinkError n) s = .next { s with
        block := { s.block with
          sinkErr := true, seq := .halt
          errInfo := { code := .sinkErr, osc := 0#6, written := 0#13 } }
        resp := .none })

/-- 10_state.md R40: the sink port's outputs are functions of state: blk_valid exactly in DRAIN, blk_len is
LEN, rd_data is the frame word at rd_addr, the one the host reads. -/
def Obligations.SinkPortOutputs : Prop :=
  ∀ s : State,
    (s.block.blkValid = true ↔ s.block.seq = .drain) ∧ s.block.blkLen = s.block.len ∧
    ∀ k : BitVec 12, exec (.rdBuf k) s = .next { s with resp := .okayRead (s.block.rdData k) }

/-- 60_exceptions.md R246: a SOFTRESET and a SINK_DONE possible together in DRAIN may come in either order,
and each order gives its own result: the later SINK_DONE is ignored, the later SOFTRESET resets a FILL
state. -/
def Obligations.SoftresetAndSinkDoneInEitherOrder : Prop :=
  ∀ (s : State) (rest : List Event), s.block.seq = .drain →
    (s.agenda = .request (.cmd 2#32) :: .request (encode (.sinkDone s.block.len)) :: rest →
      ∃ t, step s = .next t ∧ t.block = s.block.reset ∧
        step t = .next { t with resp := .none, agenda := rest }) ∧
    (s.agenda = .request (encode (.sinkDone s.block.len)) :: .request (.cmd 2#32) :: rest →
      ∃ t, step s = .next t ∧ t.block.seq = .fill ∧ t.block.blkCnt = s.block.blkCnt + 1#32 ∧
        step t = .next { block := s.block.reset, resp := .okayWrite, agenda := rest })

/-! ## The frame -/

/-- 43_mixer_sequencer.md R214 with R210 to R213 and the tick of 41_phase_bank.md R162: one FRAME_STEP
writes the frame word of both channels' samples, computed from the phases before the tick, at index
FRAMECNT; ticks every active slot; counts; enters DRAIN when the block is full; and changes nothing
else. A phase and an increment are taken in the ranges a run keeps them in (R162; log 13). -/
def Obligations.FrameStepFollowsItsRule : Prop :=
  (∀ s : State, s.block.seq ≠ .fill → ∃ t, s.seqTurn = .next t ∧ t.block = s.block) ∧
  ∀ s : State, s.block.seq = .fill → s.block.frameCnt.toNat < 4096 →
    let b := s.block
    let na := b.nleft.toNat + b.nright.toNat
    let left := ((b.slots.take b.nleft.toNat).map fun sl =>
      eval b.lkind sl.phase.toInt sl.duty.toNat sl.amp.toNat).sum
    let right := (((b.slots.take na).drop b.nleft.toNat).map fun sl =>
      eval b.rkind sl.phase.toInt sl.duty.toNat sl.amp.toNat).sum
    ∃ t, s.seqTurn = .next t ∧
      ((t.block.readFrame b.frameCnt.toNat).extractLsb' 0 16).toInt =
        max (-32768) (min 32767 (Int.tdiv left 32768)) ∧
      ((t.block.readFrame b.frameCnt.toNat).extractLsb' 16 16).toInt =
        max (-32768) (min 32767 (Int.tdiv right 32768)) ∧
      (∀ a, (a < 0x4000 + 4 * b.frameCnt.toNat ∨ 0x4000 + 4 * b.frameCnt.toNat + 4 ≤ a) →
        t.block.buf.readByte a = b.buf.readByte a) ∧
      t.block.slots.length = b.slots.length ∧
      (∀ (j : Nat) (sl : Slot), b.slots[j]? = some sl →
        (na ≤ j → t.block.slots[j]? = some sl) ∧
        (j < na → ∃ sl', t.block.slots[j]? = some sl' ∧ sl' = { sl with phase := sl'.phase } ∧
          (sl.pinc.toNat ≤ 2 ^ 30 → sl.phase ≠ 0x80000000#32 →
            sl'.phase.toInt = wrapped (sl.phase.toInt + sl.pinc.toNat)))) ∧
      t.block.frameCnt.toNat = b.frameCnt.toNat + 1 ∧
      t.block.seq = (if b.frameCnt.toNat + 1 = b.len.toNat then .drain else .fill) ∧
      t.block = { b with
        seq := t.block.seq, frameCnt := t.block.frameCnt, slots := t.block.slots, buf := t.block.buf }

/-- 43_mixer_sequencer.md R212: narrowing truncates toward zero, then clips to the 16-bit range, and the
16-bit pattern stands for the clipped integer. -/
def Obligations.NarrowingTruncatesThenSaturates : Prop :=
  ∀ sum : Int,
    narrow sum = max (-32768) (min 32767 (Int.tdiv sum 32768)) ∧
    -32768 ≤ narrow sum ∧ narrow sum ≤ 32767 ∧
    (bits16 (narrow sum)).toInt = narrow sum ∧
    (-1073774592 < sum → sum < 1073741824 → narrow sum = Int.tdiv sum 32768) ∧
    (1073741824 ≤ sum → narrow sum = 32767) ∧ (sum ≤ -1073741824 → narrow sum = -32768)

/-- 43_mixer_sequencer.md R213 and 20_memory.md R78: Left in the low half, Right in the high half, and once
written the four bytes at BUF(k) are L low, L high, R low, R high, every other byte as before. -/
def Obligations.FrameWordLayoutInMemory : Prop :=
  ∀ (b : Block) (k : Nat) (l r : Int), k < 4096 → -32768 ≤ l → l ≤ 32767 → -32768 ≤ r → r ≤ 32767 →
    let w := frameWord l r
    let m := (b.writeFrame k w).buf
    (w.extractLsb' 0 16).toInt = l ∧ (w.extractLsb' 16 16).toInt = r ∧
    m.readByte (0x4000 + 4 * k) = (BitVec.ofInt 16 l).extractLsb' 0 8 ∧
    m.readByte (0x4000 + 4 * k + 1) = (BitVec.ofInt 16 l).extractLsb' 8 8 ∧
    m.readByte (0x4000 + 4 * k + 2) = (BitVec.ofInt 16 r).extractLsb' 0 8 ∧
    m.readByte (0x4000 + 4 * k + 3) = (BitVec.ofInt 16 r).extractLsb' 8 8 ∧
    (∀ a, (a < 0x4000 + 4 * k ∨ 0x4000 + 4 * k + 4 ≤ a) → m.readByte a = b.buf.readByte a) ∧
    (∀ j, j ≠ k → (b.writeFrame k w).readFrame j = b.readFrame j)

/-! ## Waveforms -/

/-- 42_waveform.md R187 and R189, and the clamped formulas of R188. -/
def Obligations.SquareTriangleAndSilentFormulas : Prop :=
  ∀ v d a : Int,
    (v < d → eval .square v d a = a * 2 ^ 15) ∧ (d ≤ v → eval .square v d a = -(a * 2 ^ 15)) ∧
    eval .silent v d a = 0 ∧
    let d' := max 1 (min d (2 ^ 31 - 1))
    (v < d' → eval .triangle v d a = Int.tdiv (a * 2 ^ 15 * (2 * v - d')) d') ∧
    (d' ≤ v → eval .triangle v d a =
      Int.tdiv (a * 2 ^ 15 * (2 ^ 31 + d' - 2 * v)) (2 ^ 31 - d'))

/-- 42_waveform.md R182 and R183: the sine is A times a look-up that is the quadrant formula over the entries
R184 prints. With what follows from the two: the look-up has period P, changes sign over half a turn, is
constant over each of the 1024 steps, mirrors its table points about a quarter turn, rises strictly over
the first quarter, whose 257 points sum to 5356720, stays in -32768 to 32768, and is exact at the four
quarter points. -/
def Obligations.SineLookupSymmetries : Prop :=
  (∀ v d a : Int, eval .sine v d a = a * sinLut v) ∧
  (∀ v : Int,
    let idx := v % 2147483648 / 2097152
    let q := idx / 256
    let k := idx % 256
    0 ≤ idx ∧ idx ≤ 1023 ∧
    sinLut v =
      if q = 0 then printedQ k
      else if q = 1 then printedQ (256 - k)
      else if q = 2 then -printedQ k
      else -printedQ (256 - k)) ∧
  (∀ v : Int, sinLut (v + 2147483648) = sinLut v ∧ sinLut (v + 1073741824) = -sinLut v ∧
    -32768 ≤ sinLut v ∧ sinLut v ≤ 32768 ∧ sinLut (v - v % 2097152) = sinLut v) ∧
  (∀ k : Nat, k ≤ 512 → sinLut ((512 - k) * 2097152) = sinLut (k * 2097152)) ∧
  (∀ k : Nat, k < 256 → sinLut (k * 2097152) < sinLut ((k + 1) * 2097152)) ∧
  ((List.range 257).map fun k : Nat => sinLut (k * 2097152)).sum = 5356720 ∧
  sinLut 0 = 0 ∧ sinLut 536870912 = 32768 ∧ sinLut 1073741824 = 0 ∧ sinLut 1610612736 = -32768

/-- 42_waveform.md R190: for a phase in [0, P) every kind stays inside plus and minus A, and TRIANGLE
reaches both ends exactly, at 0 and at the clamped threshold. -/
def Obligations.WaveformsStayWithinTheAmplitude : Prop :=
  ∀ (v d a : Int), 0 ≤ v → v < 2147483648 → 0 ≤ d → d ≤ 2147483648 → 0 ≤ a → a ≤ 32767 →
    (∀ k : Kind, -(a * 32768) ≤ eval k v d a ∧ eval k v d a ≤ a * 32768) ∧
    (eval .square v d a = a * 32768 ∨ eval .square v d a = -(a * 32768)) ∧
    eval .triangle 0 d a = -(a * 32768) ∧
    eval .triangle (max 1 (min d 2147483647)) d a = a * 32768

/-- 42_waveform.md R191: between successive phases of one turn the triangle moves by at most
2·A·2^15 / min(d', P - d') + 1 Q15 units, over the peak too, and at the wrap from P - 1 to 0 by at most
2·A·2^15 / (P - d') + 1. -/
def Obligations.TriangleIsContinuous : Prop :=
  ∀ (v d a : Int), 0 ≤ v → v + 1 < 2147483648 → 0 ≤ d → d ≤ 2147483648 → 0 ≤ a → a ≤ 32767 →
    let d' := max 1 (min d 2147483647)
    |eval .triangle (v + 1) d a - eval .triangle v d a| ≤
      2 * (a * 32768) / min d' (2147483648 - d') + 1 ∧
    |eval .triangle 0 d a - eval .triangle 2147483647 d a| ≤
      Int.tdiv (2 * (a * 32768)) (2147483648 - d') + 1

/-- 43_mixer_sequencer.md R215: every contribution of a legal slot, at any phase in range, fits 64 bits. -/
def Obligations.ContributionsFitSixtyFourBits : Prop :=
  ∀ (k : Kind) (v d a : Int), -2147483648 < v → v < 2147483648 → 0 ≤ d → d ≤ 2147483648 →
    0 ≤ a → a ≤ 32767 → |eval k v d a| < 2 ^ 63

/-- 43_mixer_sequencer.md R222: while a channel is SILENT its samples are 0 whatever its slots hold, on
either side. -/
def Obligations.SilentChannelSamplesAreZero : Prop :=
  ∀ s : State, s.block.seq = .fill → s.block.frameCnt.toNat < 4096 →
    ∃ t, s.seqTurn = .next t ∧
      (s.block.lkind = .silent →
        (t.block.readFrame s.block.frameCnt.toNat).extractLsb' 0 16 = 0#16) ∧
      (s.block.rkind = .silent →
        (t.block.readFrame s.block.frameCnt.toNat).extractLsb' 16 16 = 0#16)

/-! ## The phase bank -/

/-- 41_phase_bank.md R163: one tick of a phase in range stays in range and is congruent to the sum modulo P,
by no correction or by one subtraction (the addition of R162 is never taken: R164). -/
def Obligations.AdvanceStaysInRange : Prop :=
  ∀ v inc : Int, -2147483648 < v → v < 2147483648 → 0 ≤ inc → inc ≤ 1073741824 →
    -2147483648 < v + inc ∧ -2147483648 < advance v inc ∧ advance v inc < 2147483648 ∧
    (advance v inc = v + inc ∨ advance v inc = v + inc - 2147483648) ∧
    (advance v inc - (v + inc)) % 2147483648 = 0

/-- 41_phase_bank.md R165 and R168: after n ticks the phase is exactly the closed form, with no drift. -/
def Obligations.PhaseClosedForm : Prop :=
  ∀ (v inc : Int) (n : Nat), -2147483648 < v → v < 2147483648 → 0 ≤ inc → inc ≤ 1073741824 →
    (fun p => advance p inc)^[n] v = phaseAt v inc n

/-- 41_phase_bank.md R169: a phase in [0, P) that moves returns after P / gcd(P, inc) frames and their
multiples, and at no other time. -/
def Obligations.PhaseIsPeriodic : Prop :=
  ∀ (v : Int) (inc : Nat), 0 ≤ v → v < 2147483648 → 0 < inc → inc ≤ 1073741824 →
    ∀ m : Nat, (fun p => advance p inc)^[m] v = v ↔
      2147483648 / Nat.gcd 2147483648 inc ∣ m

/-- 42_waveform.md R192: from phase 0, with an increment that divides P, exactly ceil(d / inc) frames of a
period of SQUARE give plus A. -/
def Obligations.SquareDutyFraction : Prop :=
  ∀ inc d a : Nat, 0 < inc → inc ≤ 1073741824 → inc ∣ 2147483648 → d ≤ 2147483648 → 0 < a →
    ((List.range (2147483648 / inc)).filter fun n =>
      decide (eval .square ((fun p => advance p inc)^[n] 0) d a = a * 32768)).length =
        (d + inc - 1) / inc

/-- 43_mixer_sequencer.md R223 with 41_phase_bank.md R165 to R167, within one block: from a state of a run
at the start of a block, left to SEQ alone (log 2), after k frames FRAMECNT is k, every phase is the
closed form of k frames, frame j of the block is the frame word of the phases of j frames for each j
below k, DRAIN is reached exactly at k = LEN, and configuration and block count are as they were. -/
def Obligations.BlockFillsGapFree : Prop :=
  ∀ (s : State) (k : Nat), s.Inv → s.block.seq = .fill → s.block.frameCnt = 0#13 →
    s.agenda = [] → k ≤ s.block.len.toNat →
    ∃ t, Sys2Proof.core.run k s = .next t ∧
      t.block.frameCnt.toNat = k ∧
      t.block.slots = (phasesAfter s.block k).slots ∧
      (∀ j, j < k → t.block.readFrame j =
        frameWord (phasesAfter s.block j).leftSample (phasesAfter s.block j).rightSample) ∧
      (t.block.seq = .drain ↔ k = s.block.len.toNat) ∧
      configuration t.block = configuration s.block ∧ t.block.blkCnt = s.block.blkCnt ∧
      t.agenda = []

/-! ## Whole-machine rules -/

/-- The invariant (Safety.lean) is kept by every step from every state that meets it. -/
def Obligations.StepKeepsTheInvariant : Prop :=
  ∀ s t : State, s.Inv → step s = .next t → t.Inv

/-- The invariant holds at power-on for every NUM_OSC of 00_scope.md R6 and every contents of BUF in
canonical form, so at `State.reset`, and after every reset of a block that has such a NUM_OSC and BUF. -/
def Obligations.InvariantHoldsAtPowerOn : Prop :=
  (∀ (n : Nat) (m : Memory), 1 ≤ n → n ≤ 64 → m.wf = true → (State.powerOn n m).Inv) ∧
  State.reset.Inv ∧
  ∀ b : Block, 1 ≤ b.numOsc → b.numOsc ≤ 64 → b.buf.wf = true → b.reset.Inv

/-- From every state that meets the invariant a step answers a next state: FRAME_STEP cannot fail
(43_mixer_sequencer.md R214) and nothing else stops. -/
def Obligations.StepNeverStopsUnderTheInvariant : Prop :=
  ∀ s : State, s.Inv → ∃ t, step s = .next t

/-- A run from a state that meets the invariant never ends in a fault or a refusal, whatever the agenda. -/
def Obligations.RunsNeverStop : Prop := ∀ s : State, s.Inv → s.NeverStops

/-- NUM_OSC is fixed for the machine (00_scope.md R6): no step changes it, from any state. -/
def Obligations.NoStepChangesNumOsc : Prop :=
  ∀ s t : State, step s = .next t → t.block.numOsc = s.block.numOsc

/-- 10_state.md R23: STATE changes only from IDLE to FILL or HALT by START, from FILL to DRAIN by the
FRAME_STEP that fills the last frame, from DRAIN to FILL or HALT by the sink's answer, and from any state
to IDLE by reset. -/
def Obligations.OnlyListedStateTransitions : Prop :=
  ∀ s t : State, step s = .next t → t.block.seq ≠ s.block.seq →
    (s.block.seq = .idle ∧ (t.block.seq = .fill ∨ t.block.seq = .halt) ∧ Starts s) ∨
    (s.block.seq = .fill ∧ t.block.seq = .drain ∧ SeqActs s ∧ t.block.frameCnt = s.block.len) ∨
    (s.block.seq = .drain ∧ (t.block.seq = .fill ∨ t.block.seq = .halt) ∧ SinkAnswers s) ∨
    (t.block.seq = .idle ∧ Resets s)

/-- 60_exceptions.md R243 and R244: in HALT no step but a reset changes anything but CMD_ERR and WIGN, so
STATE and ERRINFO stay; a reset gives the reset block. -/
def Obligations.HaltIsLeftOnlyByReset : Prop :=
  ∀ s : State, s.block.seq = .halt → ∃ t, step s = .next t ∧
    (¬ Resets s →
      t.block = { s.block with cmdErr := t.block.cmdErr, wign := t.block.wign }) ∧
    (Resets s → t.block = s.block.reset)

/-- 20_memory.md R84 and 40_config_and_commands.md R121: outside IDLE no step but a reset changes the
configuration. -/
def Obligations.ConfigurationIsFrozenOutsideIdle : Prop :=
  ∀ s t : State, step s = .next t → s.block.seq ≠ .idle → ¬ Resets s →
    configuration t.block = configuration s.block

/-- 10_state.md R22: CFG_ERR and SINK_ERR are sticky until reset, CMD_ERR and WIGN until reset or CLEAR. -/
def Obligations.StatusFlagsAreSticky : Prop :=
  ∀ s t : State, step s = .next t → ¬ Resets s →
    (s.block.cfgErr = true → t.block.cfgErr = true) ∧
    (s.block.sinkErr = true → t.block.sinkErr = true) ∧
    (¬ Clears s → s.block.cmdErr = true → t.block.cmdErr = true) ∧
    (¬ Clears s → s.block.wign = true → t.block.wign = true)

/-- 10_state.md R29: ERRINFO changes only on entry to HALT, or by reset. -/
def Obligations.ErrinfoIsWrittenOnlyOnHaltEntry : Prop :=
  ∀ s t : State, step s = .next t → ¬ Resets s → t.block.errInfo ≠ s.block.errInfo →
    s.block.seq ≠ .halt ∧ t.block.seq = .halt

/-- The memory frame of every operation (10_state.md R38, "written only by FRAME_STEP"): whatever the
operation, every byte of the buffer window reads as before. -/
def Obligations.NoOperationStoresToMemory : Prop :=
  ∀ (i : Instr) (s : State), ∃ t, exec i s = .next t ∧ t.agenda = s.agenda ∧
    (∀ a, t.block.buf.readByte a = s.block.buf.readByte a) ∧ t.block.buf = s.block.buf

/-- 10_state.md R38 and R39: a byte of BUF changes only in a step of SEQ in FILL, and then only inside the
frame word at index FRAMECNT; a reset leaves every byte. -/
def Obligations.BufIsWrittenOnlyByFrameStep : Prop :=
  ∀ (s t : State) (a : Nat), step s = .next t →
    t.block.buf.readByte a ≠ s.block.buf.readByte a →
    s.block.seq = .fill ∧ SeqActs s ∧ ¬ Resets s ∧
      0x4000 + 4 * s.block.frameCnt.toNat ≤ a ∧ a < 0x4000 + 4 * s.block.frameCnt.toNat + 4

/-- 60_exceptions.md R250: while BLKCNT has not wrapped, BLKCNT·LEN + FRAMECNT counts the frames since START:
it rises by one in a step of SEQ in FILL and stays in every other step but a reset. -/
def Obligations.FrameTotalCountsFrameSteps : Prop :=
  ∀ s t : State, s.Inv → step s = .next t → ¬ Resets s → s.block.blkCnt.toNat + 1 < 2 ^ 32 →
    t.block.blkCnt.toNat * t.block.len.toNat + t.block.frameCnt.toNat =
      s.block.blkCnt.toNat * s.block.len.toNat + s.block.frameCnt.toNat +
        (if s.block.seq = .fill ∧ (s.agenda = [] ∨ s.agenda.head? = some .seq) then 1 else 0)
end

