-- ==== Sys2Proof/Laws/State.lean ====
section
/-! SUPPORT. One lemma per field per named update of `Block`, each true by rfl, so that no proof unfolds a
record update. -/

namespace Sys2Proof.Machine

/-! ## setCfgErr -/

@[simp] theorem Block.setCfgErr_seq (b : Block) :
    b.setCfgErr.seq = b.seq := rfl
@[simp] theorem Block.setCfgErr_cfgErr (b : Block) :
    b.setCfgErr.cfgErr = true := rfl
@[simp] theorem Block.setCfgErr_sinkErr (b : Block) :
    b.setCfgErr.sinkErr = b.sinkErr := rfl
@[simp] theorem Block.setCfgErr_cmdErr (b : Block) :
    b.setCfgErr.cmdErr = b.cmdErr := rfl
@[simp] theorem Block.setCfgErr_wign (b : Block) :
    b.setCfgErr.wign = b.wign := rfl
@[simp] theorem Block.setCfgErr_lkind (b : Block) :
    b.setCfgErr.lkind = b.lkind := rfl
@[simp] theorem Block.setCfgErr_rkind (b : Block) :
    b.setCfgErr.rkind = b.rkind := rfl
@[simp] theorem Block.setCfgErr_nleft (b : Block) :
    b.setCfgErr.nleft = b.nleft := rfl
@[simp] theorem Block.setCfgErr_nright (b : Block) :
    b.setCfgErr.nright = b.nright := rfl
@[simp] theorem Block.setCfgErr_len (b : Block) :
    b.setCfgErr.len = b.len := rfl
@[simp] theorem Block.setCfgErr_frameCnt (b : Block) :
    b.setCfgErr.frameCnt = b.frameCnt := rfl
@[simp] theorem Block.setCfgErr_blkCnt (b : Block) :
    b.setCfgErr.blkCnt = b.blkCnt := rfl
@[simp] theorem Block.setCfgErr_errInfo (b : Block) :
    b.setCfgErr.errInfo = b.errInfo := rfl
@[simp] theorem Block.setCfgErr_slots (b : Block) :
    b.setCfgErr.slots = b.slots := rfl
@[simp] theorem Block.setCfgErr_buf (b : Block) :
    b.setCfgErr.buf = b.buf := rfl

/-! ## setSinkErr -/

@[simp] theorem Block.setSinkErr_seq (b : Block) :
    b.setSinkErr.seq = b.seq := rfl
@[simp] theorem Block.setSinkErr_cfgErr (b : Block) :
    b.setSinkErr.cfgErr = b.cfgErr := rfl
@[simp] theorem Block.setSinkErr_sinkErr (b : Block) :
    b.setSinkErr.sinkErr = true := rfl
@[simp] theorem Block.setSinkErr_cmdErr (b : Block) :
    b.setSinkErr.cmdErr = b.cmdErr := rfl
@[simp] theorem Block.setSinkErr_wign (b : Block) :
    b.setSinkErr.wign = b.wign := rfl
@[simp] theorem Block.setSinkErr_lkind (b : Block) :
    b.setSinkErr.lkind = b.lkind := rfl
@[simp] theorem Block.setSinkErr_rkind (b : Block) :
    b.setSinkErr.rkind = b.rkind := rfl
@[simp] theorem Block.setSinkErr_nleft (b : Block) :
    b.setSinkErr.nleft = b.nleft := rfl
@[simp] theorem Block.setSinkErr_nright (b : Block) :
    b.setSinkErr.nright = b.nright := rfl
@[simp] theorem Block.setSinkErr_len (b : Block) :
    b.setSinkErr.len = b.len := rfl
@[simp] theorem Block.setSinkErr_frameCnt (b : Block) :
    b.setSinkErr.frameCnt = b.frameCnt := rfl
@[simp] theorem Block.setSinkErr_blkCnt (b : Block) :
    b.setSinkErr.blkCnt = b.blkCnt := rfl
@[simp] theorem Block.setSinkErr_errInfo (b : Block) :
    b.setSinkErr.errInfo = b.errInfo := rfl
@[simp] theorem Block.setSinkErr_slots (b : Block) :
    b.setSinkErr.slots = b.slots := rfl
@[simp] theorem Block.setSinkErr_buf (b : Block) :
    b.setSinkErr.buf = b.buf := rfl

/-! ## setCmdErr -/

@[simp] theorem Block.setCmdErr_seq (b : Block) :
    b.setCmdErr.seq = b.seq := rfl
@[simp] theorem Block.setCmdErr_cfgErr (b : Block) :
    b.setCmdErr.cfgErr = b.cfgErr := rfl
@[simp] theorem Block.setCmdErr_sinkErr (b : Block) :
    b.setCmdErr.sinkErr = b.sinkErr := rfl
@[simp] theorem Block.setCmdErr_cmdErr (b : Block) :
    b.setCmdErr.cmdErr = true := rfl
@[simp] theorem Block.setCmdErr_wign (b : Block) :
    b.setCmdErr.wign = b.wign := rfl
@[simp] theorem Block.setCmdErr_lkind (b : Block) :
    b.setCmdErr.lkind = b.lkind := rfl
@[simp] theorem Block.setCmdErr_rkind (b : Block) :
    b.setCmdErr.rkind = b.rkind := rfl
@[simp] theorem Block.setCmdErr_nleft (b : Block) :
    b.setCmdErr.nleft = b.nleft := rfl
@[simp] theorem Block.setCmdErr_nright (b : Block) :
    b.setCmdErr.nright = b.nright := rfl
@[simp] theorem Block.setCmdErr_len (b : Block) :
    b.setCmdErr.len = b.len := rfl
@[simp] theorem Block.setCmdErr_frameCnt (b : Block) :
    b.setCmdErr.frameCnt = b.frameCnt := rfl
@[simp] theorem Block.setCmdErr_blkCnt (b : Block) :
    b.setCmdErr.blkCnt = b.blkCnt := rfl
@[simp] theorem Block.setCmdErr_errInfo (b : Block) :
    b.setCmdErr.errInfo = b.errInfo := rfl
@[simp] theorem Block.setCmdErr_slots (b : Block) :
    b.setCmdErr.slots = b.slots := rfl
@[simp] theorem Block.setCmdErr_buf (b : Block) :
    b.setCmdErr.buf = b.buf := rfl

/-! ## setWign -/

@[simp] theorem Block.setWign_seq (b : Block) :
    b.setWign.seq = b.seq := rfl
@[simp] theorem Block.setWign_cfgErr (b : Block) :
    b.setWign.cfgErr = b.cfgErr := rfl
@[simp] theorem Block.setWign_sinkErr (b : Block) :
    b.setWign.sinkErr = b.sinkErr := rfl
@[simp] theorem Block.setWign_cmdErr (b : Block) :
    b.setWign.cmdErr = b.cmdErr := rfl
@[simp] theorem Block.setWign_wign (b : Block) :
    b.setWign.wign = true := rfl
@[simp] theorem Block.setWign_lkind (b : Block) :
    b.setWign.lkind = b.lkind := rfl
@[simp] theorem Block.setWign_rkind (b : Block) :
    b.setWign.rkind = b.rkind := rfl
@[simp] theorem Block.setWign_nleft (b : Block) :
    b.setWign.nleft = b.nleft := rfl
@[simp] theorem Block.setWign_nright (b : Block) :
    b.setWign.nright = b.nright := rfl
@[simp] theorem Block.setWign_len (b : Block) :
    b.setWign.len = b.len := rfl
@[simp] theorem Block.setWign_frameCnt (b : Block) :
    b.setWign.frameCnt = b.frameCnt := rfl
@[simp] theorem Block.setWign_blkCnt (b : Block) :
    b.setWign.blkCnt = b.blkCnt := rfl
@[simp] theorem Block.setWign_errInfo (b : Block) :
    b.setWign.errInfo = b.errInfo := rfl
@[simp] theorem Block.setWign_slots (b : Block) :
    b.setWign.slots = b.slots := rfl
@[simp] theorem Block.setWign_buf (b : Block) :
    b.setWign.buf = b.buf := rfl

/-! ## clearWarnings -/

@[simp] theorem Block.clearWarnings_seq (b : Block) :
    b.clearWarnings.seq = b.seq := rfl
@[simp] theorem Block.clearWarnings_cfgErr (b : Block) :
    b.clearWarnings.cfgErr = b.cfgErr := rfl
@[simp] theorem Block.clearWarnings_sinkErr (b : Block) :
    b.clearWarnings.sinkErr = b.sinkErr := rfl
@[simp] theorem Block.clearWarnings_cmdErr (b : Block) :
    b.clearWarnings.cmdErr = false := rfl
@[simp] theorem Block.clearWarnings_wign (b : Block) :
    b.clearWarnings.wign = false := rfl
@[simp] theorem Block.clearWarnings_lkind (b : Block) :
    b.clearWarnings.lkind = b.lkind := rfl
@[simp] theorem Block.clearWarnings_rkind (b : Block) :
    b.clearWarnings.rkind = b.rkind := rfl
@[simp] theorem Block.clearWarnings_nleft (b : Block) :
    b.clearWarnings.nleft = b.nleft := rfl
@[simp] theorem Block.clearWarnings_nright (b : Block) :
    b.clearWarnings.nright = b.nright := rfl
@[simp] theorem Block.clearWarnings_len (b : Block) :
    b.clearWarnings.len = b.len := rfl
@[simp] theorem Block.clearWarnings_frameCnt (b : Block) :
    b.clearWarnings.frameCnt = b.frameCnt := rfl
@[simp] theorem Block.clearWarnings_blkCnt (b : Block) :
    b.clearWarnings.blkCnt = b.blkCnt := rfl
@[simp] theorem Block.clearWarnings_errInfo (b : Block) :
    b.clearWarnings.errInfo = b.errInfo := rfl
@[simp] theorem Block.clearWarnings_slots (b : Block) :
    b.clearWarnings.slots = b.slots := rfl
@[simp] theorem Block.clearWarnings_buf (b : Block) :
    b.clearWarnings.buf = b.buf := rfl

/-! ## writeFrame -/

@[simp] theorem Block.writeFrame_seq (b : Block) (k : Nat) (w : Word) :
    (b.writeFrame k w).seq = b.seq := rfl
@[simp] theorem Block.writeFrame_cfgErr (b : Block) (k : Nat) (w : Word) :
    (b.writeFrame k w).cfgErr = b.cfgErr := rfl
@[simp] theorem Block.writeFrame_sinkErr (b : Block) (k : Nat) (w : Word) :
    (b.writeFrame k w).sinkErr = b.sinkErr := rfl
@[simp] theorem Block.writeFrame_cmdErr (b : Block) (k : Nat) (w : Word) :
    (b.writeFrame k w).cmdErr = b.cmdErr := rfl
@[simp] theorem Block.writeFrame_wign (b : Block) (k : Nat) (w : Word) :
    (b.writeFrame k w).wign = b.wign := rfl
@[simp] theorem Block.writeFrame_lkind (b : Block) (k : Nat) (w : Word) :
    (b.writeFrame k w).lkind = b.lkind := rfl
@[simp] theorem Block.writeFrame_rkind (b : Block) (k : Nat) (w : Word) :
    (b.writeFrame k w).rkind = b.rkind := rfl
@[simp] theorem Block.writeFrame_nleft (b : Block) (k : Nat) (w : Word) :
    (b.writeFrame k w).nleft = b.nleft := rfl
@[simp] theorem Block.writeFrame_nright (b : Block) (k : Nat) (w : Word) :
    (b.writeFrame k w).nright = b.nright := rfl
@[simp] theorem Block.writeFrame_len (b : Block) (k : Nat) (w : Word) :
    (b.writeFrame k w).len = b.len := rfl
@[simp] theorem Block.writeFrame_frameCnt (b : Block) (k : Nat) (w : Word) :
    (b.writeFrame k w).frameCnt = b.frameCnt := rfl
@[simp] theorem Block.writeFrame_blkCnt (b : Block) (k : Nat) (w : Word) :
    (b.writeFrame k w).blkCnt = b.blkCnt := rfl
@[simp] theorem Block.writeFrame_errInfo (b : Block) (k : Nat) (w : Word) :
    (b.writeFrame k w).errInfo = b.errInfo := rfl
@[simp] theorem Block.writeFrame_slots (b : Block) (k : Nat) (w : Word) :
    (b.writeFrame k w).slots = b.slots := rfl
@[simp] theorem Block.writeFrame_buf (b : Block) (k : Nat) (w : Word) :
    (b.writeFrame k w).buf = b.buf.writeWord (bufAddr k) w := rfl

/-! ## setSlot -/

@[simp] theorem Block.setSlot_seq (b : Block) (i : BitVec 6) (sl : Slot) :
    (b.setSlot i sl).seq = b.seq := rfl
@[simp] theorem Block.setSlot_cfgErr (b : Block) (i : BitVec 6) (sl : Slot) :
    (b.setSlot i sl).cfgErr = b.cfgErr := rfl
@[simp] theorem Block.setSlot_sinkErr (b : Block) (i : BitVec 6) (sl : Slot) :
    (b.setSlot i sl).sinkErr = b.sinkErr := rfl
@[simp] theorem Block.setSlot_cmdErr (b : Block) (i : BitVec 6) (sl : Slot) :
    (b.setSlot i sl).cmdErr = b.cmdErr := rfl
@[simp] theorem Block.setSlot_wign (b : Block) (i : BitVec 6) (sl : Slot) :
    (b.setSlot i sl).wign = b.wign := rfl
@[simp] theorem Block.setSlot_lkind (b : Block) (i : BitVec 6) (sl : Slot) :
    (b.setSlot i sl).lkind = b.lkind := rfl
@[simp] theorem Block.setSlot_rkind (b : Block) (i : BitVec 6) (sl : Slot) :
    (b.setSlot i sl).rkind = b.rkind := rfl
@[simp] theorem Block.setSlot_nleft (b : Block) (i : BitVec 6) (sl : Slot) :
    (b.setSlot i sl).nleft = b.nleft := rfl
@[simp] theorem Block.setSlot_nright (b : Block) (i : BitVec 6) (sl : Slot) :
    (b.setSlot i sl).nright = b.nright := rfl
@[simp] theorem Block.setSlot_len (b : Block) (i : BitVec 6) (sl : Slot) :
    (b.setSlot i sl).len = b.len := rfl
@[simp] theorem Block.setSlot_frameCnt (b : Block) (i : BitVec 6) (sl : Slot) :
    (b.setSlot i sl).frameCnt = b.frameCnt := rfl
@[simp] theorem Block.setSlot_blkCnt (b : Block) (i : BitVec 6) (sl : Slot) :
    (b.setSlot i sl).blkCnt = b.blkCnt := rfl
@[simp] theorem Block.setSlot_errInfo (b : Block) (i : BitVec 6) (sl : Slot) :
    (b.setSlot i sl).errInfo = b.errInfo := rfl
@[simp] theorem Block.setSlot_slots (b : Block) (i : BitVec 6) (sl : Slot) :
    (b.setSlot i sl).slots = b.slots.set i.toNat sl := rfl
@[simp] theorem Block.setSlot_buf (b : Block) (i : BitVec 6) (sl : Slot) :
    (b.setSlot i sl).buf = b.buf := rfl

/-! ## raiseHalt -/

@[simp] theorem Block.raiseHalt_seq (b : Block) (c : ErrCode) (o : BitVec 6) (n : BitVec 13) :
    (b.raiseHalt c o n).seq = .halt := rfl
@[simp] theorem Block.raiseHalt_cfgErr (b : Block) (c : ErrCode) (o : BitVec 6) (n : BitVec 13) :
    (b.raiseHalt c o n).cfgErr = b.cfgErr := rfl
@[simp] theorem Block.raiseHalt_sinkErr (b : Block) (c : ErrCode) (o : BitVec 6) (n : BitVec 13) :
    (b.raiseHalt c o n).sinkErr = b.sinkErr := rfl
@[simp] theorem Block.raiseHalt_cmdErr (b : Block) (c : ErrCode) (o : BitVec 6) (n : BitVec 13) :
    (b.raiseHalt c o n).cmdErr = b.cmdErr := rfl
@[simp] theorem Block.raiseHalt_wign (b : Block) (c : ErrCode) (o : BitVec 6) (n : BitVec 13) :
    (b.raiseHalt c o n).wign = b.wign := rfl
@[simp] theorem Block.raiseHalt_lkind (b : Block) (c : ErrCode) (o : BitVec 6) (n : BitVec 13) :
    (b.raiseHalt c o n).lkind = b.lkind := rfl
@[simp] theorem Block.raiseHalt_rkind (b : Block) (c : ErrCode) (o : BitVec 6) (n : BitVec 13) :
    (b.raiseHalt c o n).rkind = b.rkind := rfl
@[simp] theorem Block.raiseHalt_nleft (b : Block) (c : ErrCode) (o : BitVec 6) (n : BitVec 13) :
    (b.raiseHalt c o n).nleft = b.nleft := rfl
@[simp] theorem Block.raiseHalt_nright (b : Block) (c : ErrCode) (o : BitVec 6) (n : BitVec 13) :
    (b.raiseHalt c o n).nright = b.nright := rfl
@[simp] theorem Block.raiseHalt_len (b : Block) (c : ErrCode) (o : BitVec 6) (n : BitVec 13) :
    (b.raiseHalt c o n).len = b.len := rfl
@[simp] theorem Block.raiseHalt_frameCnt (b : Block) (c : ErrCode) (o : BitVec 6) (n : BitVec 13) :
    (b.raiseHalt c o n).frameCnt = b.frameCnt := rfl
@[simp] theorem Block.raiseHalt_blkCnt (b : Block) (c : ErrCode) (o : BitVec 6) (n : BitVec 13) :
    (b.raiseHalt c o n).blkCnt = b.blkCnt := rfl
@[simp] theorem Block.raiseHalt_errInfo (b : Block) (c : ErrCode) (o : BitVec 6) (n : BitVec 13) :
    (b.raiseHalt c o n).errInfo = { code := c, osc := o, written := n } := rfl
@[simp] theorem Block.raiseHalt_slots (b : Block) (c : ErrCode) (o : BitVec 6) (n : BitVec 13) :
    (b.raiseHalt c o n).slots = b.slots := rfl
@[simp] theorem Block.raiseHalt_buf (b : Block) (c : ErrCode) (o : BitVec 6) (n : BitVec 13) :
    (b.raiseHalt c o n).buf = b.buf := rfl

/-! ## tick -/

@[simp] theorem Block.tick_seq (b : Block) :
    b.tick.seq = b.seq := rfl
@[simp] theorem Block.tick_cfgErr (b : Block) :
    b.tick.cfgErr = b.cfgErr := rfl
@[simp] theorem Block.tick_sinkErr (b : Block) :
    b.tick.sinkErr = b.sinkErr := rfl
@[simp] theorem Block.tick_cmdErr (b : Block) :
    b.tick.cmdErr = b.cmdErr := rfl
@[simp] theorem Block.tick_wign (b : Block) :
    b.tick.wign = b.wign := rfl
@[simp] theorem Block.tick_lkind (b : Block) :
    b.tick.lkind = b.lkind := rfl
@[simp] theorem Block.tick_rkind (b : Block) :
    b.tick.rkind = b.rkind := rfl
@[simp] theorem Block.tick_nleft (b : Block) :
    b.tick.nleft = b.nleft := rfl
@[simp] theorem Block.tick_nright (b : Block) :
    b.tick.nright = b.nright := rfl
@[simp] theorem Block.tick_len (b : Block) :
    b.tick.len = b.len := rfl
@[simp] theorem Block.tick_frameCnt (b : Block) :
    b.tick.frameCnt = b.frameCnt := rfl
@[simp] theorem Block.tick_blkCnt (b : Block) :
    b.tick.blkCnt = b.blkCnt := rfl
@[simp] theorem Block.tick_errInfo (b : Block) :
    b.tick.errInfo = b.errInfo := rfl
@[simp] theorem Block.tick_slots (b : Block) :
    b.tick.slots = b.slots.mapIdx fun i sl => if i < b.numActive then sl.tick else sl := rfl
@[simp] theorem Block.tick_buf (b : Block) :
    b.tick.buf = b.buf := rfl

/-! ## phaseLoad -/

@[simp] theorem Block.phaseLoad_seq (b : Block) :
    b.phaseLoad.seq = b.seq := rfl
@[simp] theorem Block.phaseLoad_cfgErr (b : Block) :
    b.phaseLoad.cfgErr = b.cfgErr := rfl
@[simp] theorem Block.phaseLoad_sinkErr (b : Block) :
    b.phaseLoad.sinkErr = b.sinkErr := rfl
@[simp] theorem Block.phaseLoad_cmdErr (b : Block) :
    b.phaseLoad.cmdErr = b.cmdErr := rfl
@[simp] theorem Block.phaseLoad_wign (b : Block) :
    b.phaseLoad.wign = b.wign := rfl
@[simp] theorem Block.phaseLoad_lkind (b : Block) :
    b.phaseLoad.lkind = b.lkind := rfl
@[simp] theorem Block.phaseLoad_rkind (b : Block) :
    b.phaseLoad.rkind = b.rkind := rfl
@[simp] theorem Block.phaseLoad_nleft (b : Block) :
    b.phaseLoad.nleft = b.nleft := rfl
@[simp] theorem Block.phaseLoad_nright (b : Block) :
    b.phaseLoad.nright = b.nright := rfl
@[simp] theorem Block.phaseLoad_len (b : Block) :
    b.phaseLoad.len = b.len := rfl
@[simp] theorem Block.phaseLoad_frameCnt (b : Block) :
    b.phaseLoad.frameCnt = b.frameCnt := rfl
@[simp] theorem Block.phaseLoad_blkCnt (b : Block) :
    b.phaseLoad.blkCnt = b.blkCnt := rfl
@[simp] theorem Block.phaseLoad_errInfo (b : Block) :
    b.phaseLoad.errInfo = b.errInfo := rfl
@[simp] theorem Block.phaseLoad_slots (b : Block) :
    b.phaseLoad.slots = b.slots.mapIdx fun i sl =>
        { sl with phase := if i < b.numActive then sl.pinit else 0#32 } := rfl
@[simp] theorem Block.phaseLoad_buf (b : Block) :
    b.phaseLoad.buf = b.buf := rfl

/-! ## acceptBlock -/

@[simp] theorem Block.acceptBlock_seq (b : Block) :
    b.acceptBlock.seq = .fill := rfl
@[simp] theorem Block.acceptBlock_cfgErr (b : Block) :
    b.acceptBlock.cfgErr = b.cfgErr := rfl
@[simp] theorem Block.acceptBlock_sinkErr (b : Block) :
    b.acceptBlock.sinkErr = b.sinkErr := rfl
@[simp] theorem Block.acceptBlock_cmdErr (b : Block) :
    b.acceptBlock.cmdErr = b.cmdErr := rfl
@[simp] theorem Block.acceptBlock_wign (b : Block) :
    b.acceptBlock.wign = b.wign := rfl
@[simp] theorem Block.acceptBlock_lkind (b : Block) :
    b.acceptBlock.lkind = b.lkind := rfl
@[simp] theorem Block.acceptBlock_rkind (b : Block) :
    b.acceptBlock.rkind = b.rkind := rfl
@[simp] theorem Block.acceptBlock_nleft (b : Block) :
    b.acceptBlock.nleft = b.nleft := rfl
@[simp] theorem Block.acceptBlock_nright (b : Block) :
    b.acceptBlock.nright = b.nright := rfl
@[simp] theorem Block.acceptBlock_len (b : Block) :
    b.acceptBlock.len = b.len := rfl
@[simp] theorem Block.acceptBlock_frameCnt (b : Block) :
    b.acceptBlock.frameCnt = 0#13 := rfl
@[simp] theorem Block.acceptBlock_blkCnt (b : Block) :
    b.acceptBlock.blkCnt = b.blkCnt + 1#32 := rfl
@[simp] theorem Block.acceptBlock_errInfo (b : Block) :
    b.acceptBlock.errInfo = b.errInfo := rfl
@[simp] theorem Block.acceptBlock_slots (b : Block) :
    b.acceptBlock.slots = b.slots := rfl
@[simp] theorem Block.acceptBlock_buf (b : Block) :
    b.acceptBlock.buf = b.buf := rfl

/-! ## frameStep -/

@[simp] theorem Block.frameStep_seq (b : Block) :
    b.frameStep.seq = if b.frameCnt + 1#13 = b.len then .drain else b.seq := rfl
@[simp] theorem Block.frameStep_cfgErr (b : Block) :
    b.frameStep.cfgErr = b.cfgErr := rfl
@[simp] theorem Block.frameStep_sinkErr (b : Block) :
    b.frameStep.sinkErr = b.sinkErr := rfl
@[simp] theorem Block.frameStep_cmdErr (b : Block) :
    b.frameStep.cmdErr = b.cmdErr := rfl
@[simp] theorem Block.frameStep_wign (b : Block) :
    b.frameStep.wign = b.wign := rfl
@[simp] theorem Block.frameStep_lkind (b : Block) :
    b.frameStep.lkind = b.lkind := rfl
@[simp] theorem Block.frameStep_rkind (b : Block) :
    b.frameStep.rkind = b.rkind := rfl
@[simp] theorem Block.frameStep_nleft (b : Block) :
    b.frameStep.nleft = b.nleft := rfl
@[simp] theorem Block.frameStep_nright (b : Block) :
    b.frameStep.nright = b.nright := rfl
@[simp] theorem Block.frameStep_len (b : Block) :
    b.frameStep.len = b.len := rfl
@[simp] theorem Block.frameStep_frameCnt (b : Block) :
    b.frameStep.frameCnt = b.frameCnt + 1#13 := rfl
@[simp] theorem Block.frameStep_blkCnt (b : Block) :
    b.frameStep.blkCnt = b.blkCnt := rfl
@[simp] theorem Block.frameStep_errInfo (b : Block) :
    b.frameStep.errInfo = b.errInfo := rfl
@[simp] theorem Block.frameStep_slots (b : Block) :
    b.frameStep.slots = b.tick.slots := rfl
@[simp] theorem Block.frameStep_buf (b : Block) :
    b.frameStep.buf = b.buf.writeWord (bufAddr b.frameCnt.toNat) (frameWord b.leftSample b.rightSample) := rfl

/-! ## reset -/

@[simp] theorem Block.reset_seq (b : Block) :
    b.reset.seq = .idle := rfl
@[simp] theorem Block.reset_cfgErr (b : Block) :
    b.reset.cfgErr = false := rfl
@[simp] theorem Block.reset_sinkErr (b : Block) :
    b.reset.sinkErr = false := rfl
@[simp] theorem Block.reset_cmdErr (b : Block) :
    b.reset.cmdErr = false := rfl
@[simp] theorem Block.reset_wign (b : Block) :
    b.reset.wign = false := rfl
@[simp] theorem Block.reset_lkind (b : Block) :
    b.reset.lkind = .silent := rfl
@[simp] theorem Block.reset_rkind (b : Block) :
    b.reset.rkind = .silent := rfl
@[simp] theorem Block.reset_nleft (b : Block) :
    b.reset.nleft = 0#7 := rfl
@[simp] theorem Block.reset_nright (b : Block) :
    b.reset.nright = 0#7 := rfl
@[simp] theorem Block.reset_len (b : Block) :
    b.reset.len = 4096#13 := rfl
@[simp] theorem Block.reset_frameCnt (b : Block) :
    b.reset.frameCnt = 0#13 := rfl
@[simp] theorem Block.reset_blkCnt (b : Block) :
    b.reset.blkCnt = 0#32 := rfl
@[simp] theorem Block.reset_errInfo (b : Block) :
    b.reset.errInfo = { code := .none, osc := 0#6, written := 0#13 } := rfl
@[simp] theorem Block.reset_slots (b : Block) :
    b.reset.slots = b.slots.map fun _ => Slot.atReset := rfl
@[simp] theorem Block.reset_buf (b : Block) :
    b.reset.buf = b.buf := rfl

/-! ## Slots -/

@[simp] theorem Slot.tick_pinc (sl : Slot) : sl.tick.pinc = sl.pinc := rfl
@[simp] theorem Slot.tick_pinit (sl : Slot) : sl.tick.pinit = sl.pinit := rfl
@[simp] theorem Slot.tick_duty (sl : Slot) : sl.tick.duty = sl.duty := rfl
@[simp] theorem Slot.tick_amp (sl : Slot) : sl.tick.amp = sl.amp := rfl
@[simp] theorem Slot.tick_phase (sl : Slot) :
    sl.tick.phase = bits32 (advance (s32 sl.phase) (u32 sl.pinc)) := rfl

/-! ## The end of a step -/

theorem State.finish_eq (s : State) (b : Block) (r : Response) :
    s.finish b r = .next { s with block := b, resp := r } := rfl

end Sys2Proof.Machine
end

