-- ==== Sys2Proof/Laws/Ops.lean ====
section
/-! SUPPORT. What the shared operations, `exec` and `step` can do, each said once: inversion lemmas that
proofs cite instead of unfolding the machine. -/

namespace Sys2Proof.Machine

/-! ## The shared operations -/

theorem State.configWrite_idle (s : State) (f : Block → Block) (h : s.block.seq = .idle) :
    s.configWrite f = .next { s with block := f s.block, resp := .okayWrite } := by
  simp [State.configWrite, State.finish_eq, h]

theorem State.configWrite_ignored (s : State) (f : Block → Block) (h : s.block.seq ≠ .idle) :
    s.configWrite f = .next { s with block := s.block.setWign, resp := .okayWrite } := by
  simp [State.configWrite, State.finish_eq, h]

theorem Block.slot?_eq_none_iff (b : Block) (i : BitVec 6) : b.slot? i = none ↔ b.numOsc ≤ i.toNat := by
  simp [Block.slot?, Block.numOsc]

theorem Block.slot?_eq_some_iff (b : Block) (i : BitVec 6) (sl : Slot) :
    b.slot? i = some sl ↔ ∃ h : i.toNat < b.slots.length, b.slots[i.toNat] = sl := by
  simp [Block.slot?, List.getElem?_eq_some_iff]

theorem State.readSlot_some (s : State) (i : BitVec 6) (f : Slot → Word) (sl : Slot)
    (h : s.block.slot? i = some sl) :
    s.readSlot i f = .next { s with resp := .okayRead (f sl) } := by
  simp [State.readSlot, h, State.answerRead, State.finish_eq]

theorem State.readSlot_none (s : State) (i : BitVec 6) (f : Slot → Word)
    (h : s.block.slot? i = none) :
    s.readSlot i f = .next { s with resp := .errorRead 0#32 } := by
  simp [State.readSlot, h, State.busError, State.finish_eq]

theorem State.writeSlot_some (s : State) (i : BitVec 6) (f : Slot → Slot) (sl : Slot)
    (h : s.block.slot? i = some sl) :
    s.writeSlot i f = s.configWrite fun b => b.setSlot i (f sl) := by
  simp [State.writeSlot, h]

theorem State.writeSlot_none (s : State) (i : BitVec 6) (f : Slot → Slot)
    (h : s.block.slot? i = none) :
    s.writeSlot i f = .next { s with resp := .errorWrite } := by
  simp [State.writeSlot, h, State.busError, State.finish_eq]

/-- WR_CMD is the command it carries. -/
theorem execWrCmd_eq (w : Word) (s : State) : execWrCmd w s = exec (decodeCmd w) s := by
  unfold execWrCmd decodeCmd cmdSelect
  repeat' split
  all_goals rfl

/-! ## Validation -/

/-- `firstFailing` answers nothing exactly when every slot passes its checks. -/
theorem firstFailing_eq_none_iff (l : List Slot) (i : Nat) :
    firstFailing i l = none ↔ ∀ sl ∈ l, sl.check = none := by
  induction l generalizing i with
  | nil => simp [firstFailing]
  | cons sl rest ih =>
    cases h : sl.check with
    | some c => simp [firstFailing, h]
    | none => simp [firstFailing, h, ih]

/-- What `firstFailing` names is the first slot that fails, under the code of its check. -/
theorem firstFailing_eq_some_iff (l : List Slot) (i : Nat) (c : ErrCode) (o : BitVec 6) :
    firstFailing i l = some (c, o) ↔
      ∃ j, ∃ h : j < l.length, o = BitVec.ofNat 6 (i + j) ∧ (l[j]).check = some c ∧
        ∀ k, ∀ hk : k < j, (l[k]'(by omega)).check = none := by
  induction l generalizing i with
  | nil => simp [firstFailing]
  | cons sl rest ih =>
    cases h : sl.check with
    | some d =>
      simp only [firstFailing, h, Option.some.injEq, Prod.mk.injEq]
      constructor
      · rintro ⟨rfl, rfl⟩
        exact ⟨0, by simp, by simp, by simpa using h, fun k hk => by omega⟩
      · rintro ⟨j, hj, ho, hc, hk⟩
        cases j with
        | zero => simp_all
        | succ j => have := hk 0 (by omega); simp [h] at this
    | none =>
      simp only [firstFailing, h, ih]
      constructor
      · rintro ⟨j, hj, ho, hc, hk⟩
        refine ⟨j + 1, by simpa using hj, by rw [ho]; congr 1; omega, by simpa using hc, ?_⟩
        intro k hkj
        cases k with
        | zero => simpa using h
        | succ k => simpa using hk k (by omega)
      · rintro ⟨j, hj, ho, hc, hk⟩
        cases j with
        | zero => simp [h] at hc
        | succ j =>
          refine ⟨j, by simpa using hj, by rw [ho]; congr 1; omega, by simpa using hc, ?_⟩
          intro k hkj
          simpa using hk (k + 1) (by omega)

theorem Block.start_rejected (b : Block) (c : ErrCode) (o : BitVec 6) (hs : b.seq = .idle)
    (hv : b.validate = some (c, o)) : b.start = b.setCfgErr.raiseHalt c o 0#13 := by
  simp [Block.start, hs, hv]

theorem Block.start_accepted (b : Block) (hs : b.seq = .idle) (hv : b.validate = none) :
    b.start = { b.phaseLoad with frameCnt := 0#13, blkCnt := 0#32, seq := .fill } := by
  simp [Block.start, hs, hv]

theorem Block.start_outside_idle (b : Block) (hs : b.seq ≠ .idle) : b.start = b.setCmdErr := by
  simp [Block.start, hs]

/-! ## What a step can do to the block -/

/-- The block after a configuration write in IDLE: only configuration differs, and no phase. -/
def Block.Reconfigured (b b' : Block) : Prop :=
  ∃ lk rk nl nr ln sls,
    b' = { b with lkind := lk, rkind := rk, nleft := nl, nright := nr, len := ln, slots := sls } ∧
      sls.map Slot.phase = b.slots.map Slot.phase

/-- Every effect one step of any agent can have on the block, with its guard. -/
inductive Block.Effect (b : Block) : Block → Prop where
  | same : Block.Effect b b
  | ignoredWrite (h : b.seq ≠ .idle) : Block.Effect b b.setWign
  | configured (h : b.seq = .idle) (b' : Block) (hb : b.Reconfigured b') : Block.Effect b b'
  | commandError : Block.Effect b b.setCmdErr
  | cleared : Block.Effect b b.clearWarnings
  | reset : Block.Effect b b.reset
  | rejected (c : ErrCode) (o : BitVec 6) (h : b.seq = .idle) (hv : b.validate = some (c, o)) :
      Block.Effect b (b.setCfgErr.raiseHalt c o 0#13)
  | started (h : b.seq = .idle) (hv : b.validate = none) :
      Block.Effect b { b.phaseLoad with frameCnt := 0#13, blkCnt := 0#32, seq := .fill }
  | framed (h : b.seq = .fill) (hk : b.frameCnt.toNat < Config.bufFrames) :
      Block.Effect b b.frameStep
  | accepted (h : b.seq = .drain) : Block.Effect b b.acceptBlock
  | sinkFailed (h : b.seq = .drain) :
      Block.Effect b (b.setSinkErr.raiseHalt .sinkErr 0#6 0#13)
  | sinkShort (n : BitVec 13) (h : b.seq = .drain) (hn : n ≠ b.len) :
      Block.Effect b (b.setSinkErr.raiseHalt .sinkShort 0#6 n)

theorem Block.reconfigured_setSlot (b : Block) (i : BitVec 6) (sl sl' : Slot)
    (h : b.slot? i = some sl) (hp : sl'.phase = sl.phase) : b.Reconfigured (b.setSlot i sl') := by
  obtain ⟨hi, hsl⟩ := (b.slot?_eq_some_iff i sl).1 h
  refine ⟨b.lkind, b.rkind, b.nleft, b.nright, b.len, b.slots.set i.toNat sl', rfl, ?_⟩
  rw [List.map_set, hp, ← hsl]
  apply List.ext_getElem (by simp)
  intro n h1 h2
  simp only [List.getElem_set, List.getElem_map]
  split
  · subst_vars; rfl
  · rfl

theorem State.configWrite_effect (s : State) (f : Block → Block)
    (hf : s.block.seq = .idle → s.block.Reconfigured (f s.block)) :
    ∃ b r, s.configWrite f = .next { s with block := b, resp := r } ∧ s.block.Effect b := by
  by_cases h : s.block.seq = .idle
  · exact ⟨_, _, s.configWrite_idle f h, .configured h _ (hf h)⟩
  · exact ⟨_, _, s.configWrite_ignored f h, .ignoredWrite h⟩

theorem State.readSlot_effect (s : State) (i : BitVec 6) (f : Slot → Word) :
    ∃ b r, s.readSlot i f = .next { s with block := b, resp := r } ∧ s.block.Effect b := by
  cases h : s.block.slot? i with
  | some sl => exact ⟨_, _, s.readSlot_some i f sl h, .same⟩
  | none => exact ⟨_, _, s.readSlot_none i f h, .same⟩

theorem State.writeSlot_effect (s : State) (i : BitVec 6) (f : Slot → Slot)
    (hf : ∀ sl, (f sl).phase = sl.phase) :
    ∃ b r, s.writeSlot i f = .next { s with block := b, resp := r } ∧ s.block.Effect b := by
  cases h : s.block.slot? i with
  | some sl =>
    rw [s.writeSlot_some i f sl h]
    exact s.configWrite_effect _ fun _ => s.block.reconfigured_setSlot i sl _ h (hf sl)
  | none => exact ⟨_, _, s.writeSlot_none i f h, .same⟩

theorem State.sinkAnswer_effect (s : State) (f : Block → Block)
    (hf : s.block.seq = .drain → s.block.Effect (f s.block)) :
    ∃ b r, s.sinkAnswer f = .next { s with block := b, resp := r } ∧ s.block.Effect b := by
  by_cases h : s.block.seq = .drain
  · exact ⟨f s.block, .none, by simp [State.sinkAnswer, State.finish_eq, h], hf h⟩
  · exact ⟨s.block, .none, by simp [State.sinkAnswer, State.finish_eq, h], .same⟩

theorem Block.start_effect (b : Block) : b.Effect b.start := by
  by_cases hs : b.seq = .idle
  · cases hv : b.validate with
    | none => exact b.start_accepted hs hv ▸ .started hs hv
    | some p => exact b.start_rejected p.1 p.2 hs hv ▸ .rejected p.1 p.2 hs hv
  · exact b.start_outside_idle hs ▸ .commandError

theorem execWrCmd_effect (w : Word) (s : State) :
    ∃ b r, execWrCmd w s = .next { s with block := b, resp := r } ∧ s.block.Effect b := by
  unfold execWrCmd cmdSelect
  repeat' split
  · exact ⟨_, _, rfl, .same⟩
  · exact ⟨_, _, rfl, s.block.start_effect⟩
  · exact ⟨_, _, rfl, .reset⟩
  · exact ⟨_, _, rfl, .cleared⟩
  · exact ⟨_, _, rfl, .commandError⟩

theorem execWrPhase_effect (i : BitVec 6) (w : Word) (s : State) :
    ∃ b r, execWrPhase i w s = .next { s with block := b, resp := r } ∧ s.block.Effect b := by
  unfold execWrPhase
  split <;> exact ⟨_, _, rfl, .same⟩

/-- `exec` always answers a next state, keeps the agenda, and changes the block in one of the ways above. -/
theorem exec_effect (i : Instr) (s : State) :
    ∃ b r, exec i s = .next { s with block := b, resp := r } ∧ s.block.Effect b := by
  cases i with
  | wrCmd w => exact execWrCmd_effect w s
  | wrChcfg w =>
    exact s.configWrite_effect (fun b => { b with lkind := wdataLkind w, rkind := wdataRkind w }) fun _ =>
      ⟨_, _, _, _, _, s.block.slots, rfl, rfl⟩
  | wrNosc w =>
    exact s.configWrite_effect (fun b => { b with nleft := wdataNleft w, nright := wdataNright w }) fun _ =>
      ⟨_, _, _, _, _, s.block.slots, rfl, rfl⟩
  | wrBlklen w =>
    exact s.configWrite_effect (fun b => { b with len := wdataLen w }) fun _ =>
      ⟨_, _, _, _, _, s.block.slots, rfl, rfl⟩
  | wrPinc i w => exact s.writeSlot_effect i _ fun _ => rfl
  | wrPinit i w => exact s.writeSlot_effect i _ fun _ => rfl
  | wrDuty i w => exact s.writeSlot_effect i _ fun _ => rfl
  | wrAmp i w => exact s.writeSlot_effect i _ fun _ => rfl
  | wrPhase i w => exact execWrPhase_effect i w s
  | rdPinc i => exact s.readSlot_effect i _
  | rdPinit i => exact s.readSlot_effect i _
  | rdDuty i => exact s.readSlot_effect i _
  | rdAmp i => exact s.readSlot_effect i _
  | rdPhase i => exact s.readSlot_effect i _
  | start => exact ⟨_, _, rfl, s.block.start_effect⟩
  | softreset => exact ⟨_, _, rfl, .reset⟩
  | clear => exact ⟨_, _, rfl, .cleared⟩
  | cmdRsvd w => exact ⟨_, _, rfl, .commandError⟩
  | sinkDone n =>
    refine s.sinkAnswer_effect
      (fun b => if n = b.len then b.acceptBlock else b.setSinkErr.raiseHalt .sinkShort 0#6 n)
      fun h => ?_
    by_cases hn : n = s.block.len
    · simpa only [hn, if_true] using .accepted h
    · simpa only [hn, if_false] using .sinkShort n h hn
  | sinkError n =>
    exact s.sinkAnswer_effect (fun b => b.setSinkErr.raiseHalt .sinkErr 0#6 0#13) fun h => .sinkFailed h
  | _ => exact ⟨_, _, rfl, .same⟩

/-- A turn of SEQ: it stops only on a frame index outside BUF. -/
theorem State.seqTurn_effect (s : State) :
    (s.seqTurn = .fault .frameIndexOutsideBuffer ∧ s.block.seq = .fill ∧
        Config.bufFrames ≤ s.block.frameCnt.toNat) ∨
      ∃ b r, s.seqTurn = .next { s with block := b, resp := r } ∧ s.block.Effect b := by
  by_cases hf : s.block.seq = .fill
  · by_cases hk : s.block.frameCnt.toNat < Config.bufFrames
    · exact .inr ⟨s.block.frameStep, .none,
        by simp only [State.seqTurn, hf, State.frameStep, hk, if_true, State.finish_eq], .framed hf hk⟩
    · exact .inl ⟨by simp only [State.seqTurn, hf, State.frameStep, hk, if_true, if_false], hf, by omega⟩
  · exact .inr ⟨s.block, .none, by simp only [State.seqTurn, hf, if_false, State.finish_eq], .same⟩

/-- A step stops only on a frame index outside BUF; else it takes the head of the agenda and changes the
block in one of the ways above. -/
theorem step_effect (s : State) :
    (step s = .fault .frameIndexOutsideBuffer ∧ s.block.seq = .fill ∧
        Config.bufFrames ≤ s.block.frameCnt.toNat) ∨
      ∃ b r, step s = .next { block := b, resp := r, agenda := s.agenda.tail } ∧ s.block.Effect b := by
  obtain ⟨b0, r0, agenda⟩ := s
  cases agenda with
  | nil => exact State.seqTurn_effect ⟨b0, r0, []⟩
  | cons e rest =>
    cases e with
    | seq => exact State.seqTurn_effect ⟨b0, r0, rest⟩
    | rst => exact .inr ⟨b0.reset, .none, rfl, .reset⟩
    | request r => exact .inr (exec_effect (decode b0.numOsc r) ⟨b0, r0, rest⟩)

end Sys2Proof.Machine
end

