-- ==== Sys2Proof/Laws/Bank.lean ====
section
/-! SUPPORT. The laws of the slot file and the phase bank: what each update does to the number of slots, to
one slot, and to the range of a phase. -/

namespace Sys2Proof.Machine

/-! ## The number of slots -/

@[simp] theorem Block.numOsc_setCfgErr (b : Block) : b.setCfgErr.numOsc = b.numOsc := rfl
@[simp] theorem Block.numOsc_setSinkErr (b : Block) : b.setSinkErr.numOsc = b.numOsc := rfl
@[simp] theorem Block.numOsc_setCmdErr (b : Block) : b.setCmdErr.numOsc = b.numOsc := rfl
@[simp] theorem Block.numOsc_setWign (b : Block) : b.setWign.numOsc = b.numOsc := rfl
@[simp] theorem Block.numOsc_clearWarnings (b : Block) : b.clearWarnings.numOsc = b.numOsc := rfl
@[simp] theorem Block.numOsc_acceptBlock (b : Block) : b.acceptBlock.numOsc = b.numOsc := rfl
@[simp] theorem Block.numOsc_writeFrame (b : Block) (k : Nat) (w : Word) :
    (b.writeFrame k w).numOsc = b.numOsc := rfl
@[simp] theorem Block.numOsc_raiseHalt (b : Block) (c : ErrCode) (o : BitVec 6) (n : BitVec 13) :
    (b.raiseHalt c o n).numOsc = b.numOsc := rfl
@[simp] theorem Block.numOsc_setSlot (b : Block) (i : BitVec 6) (sl : Slot) :
    (b.setSlot i sl).numOsc = b.numOsc := by simp [Block.numOsc]
@[simp] theorem Block.numOsc_tick (b : Block) : b.tick.numOsc = b.numOsc := by simp [Block.numOsc]
@[simp] theorem Block.numOsc_phaseLoad (b : Block) : b.phaseLoad.numOsc = b.numOsc := by
  simp [Block.numOsc]
@[simp] theorem Block.numOsc_frameStep (b : Block) : b.frameStep.numOsc = b.numOsc := by
  simp [Block.numOsc]
@[simp] theorem Block.numOsc_reset (b : Block) : b.reset.numOsc = b.numOsc := by simp [Block.numOsc]

theorem Block.Reconfigured.numOsc_eq {b b' : Block} (h : b.Reconfigured b') :
    b'.numOsc = b.numOsc := by
  obtain ⟨_, _, _, _, _, sls, rfl, hp⟩ := h
  simpa [Block.numOsc] using congrArg List.length hp

/-! ## The active slots -/

@[simp] theorem Block.numActive_setCfgErr (b : Block) : b.setCfgErr.numActive = b.numActive := rfl
@[simp] theorem Block.numActive_setSinkErr (b : Block) : b.setSinkErr.numActive = b.numActive := rfl
@[simp] theorem Block.numActive_setCmdErr (b : Block) : b.setCmdErr.numActive = b.numActive := rfl
@[simp] theorem Block.numActive_setWign (b : Block) : b.setWign.numActive = b.numActive := rfl
@[simp] theorem Block.numActive_clearWarnings (b : Block) : b.clearWarnings.numActive = b.numActive := rfl
@[simp] theorem Block.numActive_acceptBlock (b : Block) : b.acceptBlock.numActive = b.numActive := rfl
@[simp] theorem Block.numActive_raiseHalt (b : Block) (c : ErrCode) (o : BitVec 6) (n : BitVec 13) :
    (b.raiseHalt c o n).numActive = b.numActive := rfl
@[simp] theorem Block.numActive_writeFrame (b : Block) (k : Nat) (w : Word) :
    (b.writeFrame k w).numActive = b.numActive := rfl
@[simp] theorem Block.numActive_tick (b : Block) : b.tick.numActive = b.numActive := rfl
@[simp] theorem Block.numActive_phaseLoad (b : Block) : b.phaseLoad.numActive = b.numActive := rfl
@[simp] theorem Block.numActive_frameStep (b : Block) : b.frameStep.numActive = b.numActive := rfl

theorem Block.mem_activeSlots (b : Block) (sl : Slot) :
    sl ∈ b.activeSlots ↔ ∃ i, ∃ h : i < b.slots.length, i < b.numActive ∧ b.slots[i] = sl := by
  simp only [Block.activeSlots, List.mem_take_iff_getElem]
  constructor
  · rintro ⟨i, hi, rfl⟩
    exact ⟨i, by omega, by omega, rfl⟩
  · rintro ⟨i, h, ha, rfl⟩
    exact ⟨i, by omega, rfl⟩

theorem Block.mem_inactiveSlots (b : Block) (sl : Slot) :
    sl ∈ b.slots.drop b.numActive ↔
      ∃ i, ∃ h : i < b.slots.length, b.numActive ≤ i ∧ b.slots[i] = sl := by
  rw [List.mem_drop_iff_getElem]
  constructor
  · rintro ⟨i, hi, rfl⟩
    exact ⟨b.numActive + i, by omega, by omega, rfl⟩
  · rintro ⟨i, h, ha, rfl⟩
    exact ⟨i - b.numActive, by omega, by congr 1; omega⟩

/-! ## One slot -/

theorem Block.tick_slot (b : Block) (i : Nat) (h : i < b.slots.length) :
    b.tick.slots[i]'(by simpa using h) =
      if i < b.numActive then (b.slots[i]).tick else b.slots[i] := by
  simp

theorem Block.frameStep_slot (b : Block) (i : Nat) (h : i < b.slots.length) :
    b.frameStep.slots[i]'(by simpa using h) =
      if i < b.numActive then (b.slots[i]).tick else b.slots[i] := by
  simp

theorem Block.phaseLoad_slot (b : Block) (i : Nat) (h : i < b.slots.length) :
    b.phaseLoad.slots[i]'(by simpa using h) =
      { b.slots[i] with phase := if i < b.numActive then (b.slots[i]).pinit else 0#32 } := by
  simp

/-- A tick of a slot leaves its configuration, so what START checked stays true. -/
@[simp] theorem Slot.tick_check (sl : Slot) : sl.tick.check = sl.check := rfl

/-- The slots of `b` with other phases, as far as `check` sees. -/
theorem firstFailing_congr (l l' : List Slot) (i : Nat)
    (h : l.map Slot.check = l'.map Slot.check) : firstFailing i l = firstFailing i l' := by
  induction l generalizing l' i with
  | nil => cases l' <;> simp_all [firstFailing]
  | cons sl rest ih =>
    cases l' with
    | nil => simp at h
    | cons sl' rest' =>
      simp only [List.map_cons, List.cons.injEq] at h
      simp only [firstFailing, h.1]
      split
      · rfl
      · exact ih _ _ h.2

theorem Slot.check_eq_none_iff (sl : Slot) :
    sl.check = none ↔
      sl.pinc.toNat ≤ Config.pincMax ∧ sl.amp.toNat ≤ Config.ampMax ∧
        sl.pinit ≠ Config.pinitIllegal ∧ sl.duty.toNat ≤ Config.dutyMax := by
  unfold Slot.check
  constructor
  · intro h
    split at h
    · cases h
    · split at h
      · cases h
      · split at h
        · cases h
        · split at h
          · cases h
          · exact ⟨by omega, by omega, ‹_›, by omega⟩
  · rintro ⟨h1, h2, h3, h4⟩
    rw [if_neg (by omega), if_neg (by omega), if_neg h3, if_neg (by omega)]

/-! ## Phases -/

theorem s32_bits32 (v : Int) (h1 : -2147483648 ≤ v) (h2 : v < 2147483648) : s32 (bits32 v) = v := by
  simp only [s32, bits32]
  exact BitVec.toInt_ofInt_eq_self (by decide) (by simpa using h1) (by simpa using h2)

theorem s32_range (w : Word) : -2147483648 ≤ s32 w ∧ s32 w < 2147483648 := by
  simp only [s32]
  have h1 := BitVec.le_toInt w
  have h2 := BitVec.toInt_lt (x := w)
  norm_num at h1 h2
  exact ⟨h1, h2⟩

/-- The pattern 0x80000000 is the one phase outside -P+1 to P-1. -/
theorem s32_ne_min_iff (w : Word) : w ≠ 0x80000000#32 ↔ -2147483648 < s32 w := by
  have h := s32_range w
  have hm : s32 0x80000000#32 = -2147483648 := by decide
  constructor
  · intro hne
    refine lt_of_le_of_ne h.1 fun he => hne ?_
    exact BitVec.eq_of_toInt_eq (by simp only [s32] at he hm; rw [hm, ← he])
  · rintro hlt rfl
    omega

theorem advance_range (v inc : Int) (h1 : -2147483648 < v) (h2 : v < 2147483648) (h3 : 0 ≤ inc)
    (h4 : inc ≤ 1073741824) : -2147483648 < advance v inc ∧ advance v inc < 2147483648 := by
  simp only [advance, Config.turn]
  split
  · omega
  · split <;> omega

/-- The tick of a slot whose increment is legal keeps its phase in range, as an integer. -/
theorem Slot.tick_s32 (sl : Slot) (hp : sl.phase ≠ 0x80000000#32)
    (hi : sl.pinc.toNat ≤ Config.pincMax) :
    s32 sl.tick.phase = advance (s32 sl.phase) (u32 sl.pinc) := by
  have h1 := (s32_ne_min_iff _).1 hp
  have h2 := (s32_range sl.phase).2
  have hi' : sl.pinc.toNat ≤ 1073741824 := hi
  have h3 := advance_range (s32 sl.phase) (u32 sl.pinc) h1 h2 (by simp [u32]) (by simp only [u32]; omega)
  rw [Slot.tick_phase, s32_bits32 _ (by omega) h3.2]

theorem Slot.tick_phase_ne_min (sl : Slot) (hp : sl.phase ≠ 0x80000000#32)
    (hi : sl.pinc.toNat ≤ Config.pincMax) : sl.tick.phase ≠ 0x80000000#32 := by
  have h1 := (s32_ne_min_iff _).1 hp
  have h2 := (s32_range sl.phase).2
  have hi' : sl.pinc.toNat ≤ 1073741824 := hi
  rw [s32_ne_min_iff, sl.tick_s32 hp hi]
  exact (advance_range _ _ h1 h2 (by simp [u32]) (by simp only [u32]; omega)).1

end Sys2Proof.Machine
end

