-- ==== Sys2Proof/Laws/Memory.lean ====
section
/-! SUPPORT. The laws of the frame buffer: a read after a write, a write leaves the rest alone, and every
write keeps the canonical form. -/

namespace Sys2Proof.Machine

/-! ## Bytes -/

theorem Memory.lookup_writeByte (m : Memory) (a b : Nat) (v : Byte) :
    Memory.lookup b (Memory.writeByte a v m) = if b = a then some v else Memory.lookup b m := by
  induction m with
  | nil => simp [Memory.writeByte, Memory.lookup, eq_comm]
  | cons c m ih =>
    simp only [Memory.writeByte]
    split
    · simp [Memory.lookup, eq_comm]
    · split
      · rename_i _ h
        subst h
        by_cases hb : b = c.1
        · simp [Memory.lookup, hb]
        · simp [Memory.lookup, hb, Ne.symm hb]
      · rename_i _ h
        by_cases hb : c.1 = b
        · subst hb
          simp [Memory.lookup, h]
        · simp [Memory.lookup, hb, ih]

theorem Memory.readByte_writeByte (m : Memory) (a b : Nat) (v : Byte) :
    Memory.readByte (Memory.writeByte a v m) b = if b = a then v else m.readByte b := by
  simp only [Memory.readByte, Memory.lookup_writeByte]
  split <;> simp

theorem Memory.risingFrom_writeByte (m : Memory) (lo a : Nat) (v : Byte)
    (hm : Memory.risingFrom lo m = true) (hlo : lo ≤ a) (ha : a < Config.bufEnd) :
    Memory.risingFrom lo (Memory.writeByte a v m) = true := by
  induction m generalizing lo with
  | nil => simp [Memory.writeByte, Memory.risingFrom, hlo, ha]
  | cons c m ih =>
    simp only [Memory.risingFrom, Bool.and_eq_true, decide_eq_true_eq] at hm
    obtain ⟨⟨h1, h2⟩, h3⟩ := hm
    simp only [Memory.writeByte]
    split
    · simp only [Memory.risingFrom, Bool.and_eq_true, decide_eq_true_eq]
      exact ⟨⟨hlo, ha⟩, ⟨by omega, h2⟩, h3⟩
    · split
      · subst_vars
        simp only [Memory.risingFrom, Bool.and_eq_true, decide_eq_true_eq]
        exact ⟨⟨h1, h2⟩, h3⟩
      · simp only [Memory.risingFrom, Bool.and_eq_true, decide_eq_true_eq]
        exact ⟨⟨h1, h2⟩, ih _ h3 (by omega)⟩

theorem Memory.wf_writeByte (m : Memory) (a : Nat) (v : Byte) (hm : m.wf = true)
    (hlo : Config.bufBase ≤ a) (ha : a < Config.bufEnd) :
    Memory.wf (Memory.writeByte a v m) = true :=
  Memory.risingFrom_writeByte m _ a v hm hlo ha

/-! ## Words -/

theorem Memory.readByte_writeWord (m : Memory) (a b : Nat) (w : Word) :
    Memory.readByte (m.writeWord a w) b =
      if a ≤ b ∧ b < a + 4 then wordByte w (b - a) else m.readByte b := by
  simp only [Memory.writeWord, Memory.readByte_writeByte]
  by_cases h : a ≤ b ∧ b < a + 4
  · obtain h' | h' | h' | h' : b = a ∨ b = a + 1 ∨ b = a + 2 ∨ b = a + 3 := by omega
    all_goals subst h'; simp
  · rw [if_neg (by omega), if_neg (by omega), if_neg (by omega), if_neg (by omega), if_neg h]

theorem wordBytes_append (w : Word) :
    (wordByte w 3 ++ wordByte w 2 ++ wordByte w 1 ++ wordByte w 0 : BitVec (8 + 8 + 8 + 8)) = w := by
  apply BitVec.eq_of_getLsbD_eq
  intro i hi
  simp only [wordByte, BitVec.getLsbD_append, BitVec.getLsbD_extractLsb']
  by_cases h1 : i < 8
  · simp [h1]
  · by_cases h2 : i < 16
    · have : i - 8 < 8 := by omega
      simp [h1, this]; congr 1; omega
    · by_cases h3 : i < 24
      · have : i - 8 - 8 < 8 := by omega
        simp [h1, this, show ¬ (i - 8 < 8) by omega]; congr 1; omega
      · have : i - 8 - 8 - 8 < 8 := by omega
        simp [h1, this, show ¬ (i - 8 < 8) by omega, show ¬ (i - 8 - 8 < 8) by omega]; congr 1; omega

theorem Memory.readWord_writeWord_same (m : Memory) (a : Nat) (w : Word) :
    Memory.readWord (m.writeWord a w) a = w := by
  have h := wordBytes_append w
  simpa [Memory.readWord, Memory.readByte_writeWord] using h

theorem Memory.readWord_writeWord_apart (m : Memory) (a b : Nat) (w : Word)
    (h : b + 4 ≤ a ∨ a + 4 ≤ b) :
    Memory.readWord (m.writeWord a w) b = m.readWord b := by
  simp only [Memory.readWord, Memory.readByte_writeWord]
  rw [if_neg (by omega), if_neg (by omega), if_neg (by omega), if_neg (by omega)]

theorem Memory.wf_writeWord (m : Memory) (a : Nat) (w : Word) (hm : m.wf = true)
    (hlo : Config.bufBase ≤ a) (ha : a + 3 < Config.bufEnd) :
    Memory.wf (m.writeWord a w) = true := by
  refine Memory.wf_writeByte _ _ _ (Memory.wf_writeByte _ _ _ (Memory.wf_writeByte _ _ _
    (Memory.wf_writeByte _ _ _ hm ?_ ?_) ?_ ?_) ?_ ?_) ?_ ?_ <;> omega

/-! ## Frame words -/

theorem Block.readFrame_writeFrame (b : Block) (k j : Nat) (w : Word) :
    (b.writeFrame k w).readFrame j = if j = k then w else b.readFrame j := by
  by_cases h : j = k
  · subst h
    simp [Block.readFrame, Memory.readWord_writeWord_same]
  · simp only [Block.readFrame, Block.writeFrame_buf, if_neg h, bufAddr]
    exact Memory.readWord_writeWord_apart _ _ _ _ (by omega)

theorem Block.wf_writeFrame (b : Block) (k : Nat) (w : Word) (hb : b.buf.wf = true)
    (hk : k < Config.bufFrames) : (b.writeFrame k w).buf.wf = true := by
  have hk' : k < 4096 := hk
  simp only [Block.writeFrame_buf, bufAddr]
  refine Memory.wf_writeWord _ _ _ hb ?_ ?_ <;> simp only [Config.bufBase, Config.bufEnd] <;> omega

end Sys2Proof.Machine
end

