-- ==== Sys2Proof/Laws/Images.lean ====
section
/-! SUPPORT. The register images and the frame word as numbers and as halves: one lemma per image. -/

namespace Sys2Proof.Machine

/-- `{x, y}` as a number. -/
theorem toNat_concat {m n : Nat} (x : BitVec m) (y : BitVec n) :
    (x ++ y).toNat = x.toNat * 2 ^ n + y.toNat := by
  rw [BitVec.toNat_append, ← Nat.shiftLeft_add_eq_or_of_lt y.isLt, Nat.shiftLeft_eq]

/-- A reserved field of an image is the number 0. -/
theorem toNat_zero (n : Nat) : (0#n).toNat = 0 := by simp

theorem chcfgImage_toNat (b : Block) :
    (chcfgImage b).toNat = 4 * b.rkind.code.toNat + b.lkind.code.toNat := by
  refine (toNat_concat (0#28 ++ b.rkind.code) b.lkind.code).trans ?_
  rw [toNat_concat, toNat_zero]
  omega

theorem noscImage_toNat (b : Block) :
    (noscImage b).toNat = 256 * b.nright.toNat + b.nleft.toNat := by
  refine (toNat_concat (0#17 ++ b.nright ++ 0#1) b.nleft).trans ?_
  rw [toNat_concat, toNat_concat, toNat_zero, toNat_zero]
  omega

theorem blklenImage_toNat (b : Block) : (blklenImage b).toNat = b.len.toNat := by
  refine (toNat_concat 0#19 b.len).trans ?_
  rw [toNat_zero]
  omega

theorem framecntImage_toNat (b : Block) : (framecntImage b).toNat = b.frameCnt.toNat := by
  refine (toNat_concat 0#19 b.frameCnt).trans ?_
  rw [toNat_zero]
  omega

theorem errinfoImage_toNat (b : Block) :
    (errinfoImage b).toNat =
      65536 * b.errInfo.written.toNat + 256 * b.errInfo.osc.toNat + b.errInfo.code.code.toNat := by
  refine (toNat_concat (0#3 ++ b.errInfo.written ++ 0#2 ++ b.errInfo.osc ++ 0#4)
    b.errInfo.code.code).trans ?_
  rw [toNat_concat, toNat_concat, toNat_concat, toNat_concat, toNat_zero, toNat_zero, toNat_zero]
  omega

theorem ampImage_toNat (sl : Slot) : (ampImage sl).toNat = sl.amp.toNat := by
  refine (toNat_concat 0#16 sl.amp).trans ?_
  rw [toNat_zero]
  omega

theorem readWord_toNat (m : Memory) (a : Nat) :
    (m.readWord a).toNat =
      (((m.readByte (a + 3)).toNat * 2 ^ 8 + (m.readByte (a + 2)).toNat) * 2 ^ 8 +
        (m.readByte (a + 1)).toNat) * 2 ^ 8 + (m.readByte a).toNat := by
  refine (toNat_concat (m.readByte (a + 3) ++ m.readByte (a + 2) ++ m.readByte (a + 1))
    (m.readByte a)).trans ?_
  rw [toNat_concat, toNat_concat]

/-- Byte `j` of a word read at `a` is the byte at `a + j` (20_memory.md R78). -/
theorem readWord_byte (m : Memory) (a j : Nat) (hj : j < 4) :
    wordByte (m.readWord a) j = m.readByte (a + j) := by
  have h0 := (m.readByte a).isLt
  have h1 := (m.readByte (a + 1)).isLt
  have h2 := (m.readByte (a + 2)).isLt
  have h3 := (m.readByte (a + 3)).isLt
  apply BitVec.eq_of_toNat_eq
  rw [wordByte, BitVec.extractLsb'_toNat, readWord_toNat, Nat.shiftRight_eq_div_pow]
  obtain rfl | rfl | rfl | rfl : j = 0 ∨ j = 1 ∨ j = 2 ∨ j = 3 := by omega
  · change _ = (m.readByte a).toNat
    rw [Nat.mul_zero, Nat.pow_zero, Nat.div_one]
    omega
  all_goals omega

theorem frameWord_toNat (l r : Int) :
    (frameWord l r).toNat = (bits16 r).toNat * 65536 + (bits16 l).toNat :=
  toNat_concat (bits16 r) (bits16 l)

/-- Bits [15:0] of the frame word. -/
theorem frameWord_low (l r : Int) : (frameWord l r).extractLsb' 0 16 = bits16 l := by
  have h1 := (bits16 l).isLt
  apply BitVec.eq_of_toNat_eq
  rw [BitVec.extractLsb'_toNat, frameWord_toNat, Nat.shiftRight_eq_div_pow]
  omega

/-- Bits [31:16] of the frame word. -/
theorem frameWord_high (l r : Int) : (frameWord l r).extractLsb' 16 16 = bits16 r := by
  have h1 := (bits16 l).isLt
  have h2 := (bits16 r).isLt
  apply BitVec.eq_of_toNat_eq
  rw [BitVec.extractLsb'_toNat, frameWord_toNat, Nat.shiftRight_eq_div_pow]
  omega

/-- A sample in the 16-bit range is what its pattern stands for. -/
theorem toInt_bits16 (v : Int) (h1 : -32768 ≤ v) (h2 : v ≤ 32767) : (bits16 v).toInt = v :=
  BitVec.toInt_ofInt_eq_self (by decide) (by simpa using h1) (by norm_num; omega)

end Sys2Proof.Machine
end

