-- ==== Sys2Proof/Laws/PerInstr.lean ====
section
/-! SUPPORT. The per-instruction family EncodedFormat: every operation is encoded in the format that its row
of spec/opcode_table.json names, in that format's number of bytes (log 10). -/

namespace Sys2Proof.Laws.EncodedFormat

/-- The format column of the operation's row. -/
def format : Instr → Port
  | .rdId | .wrId _ | .rdStatus | .wrStatus _ | .rdCmd | .wrCmd _ | .rdChcfg
  | .wrChcfg _ | .rdNosc | .wrNosc _ | .rdBlklen | .wrBlklen _ | .rdFramecnt
  | .wrFramecnt _ | .rdBlkcnt | .wrBlkcnt _ | .rdErrinfo | .wrErrinfo _ | .rdPinc _
  | .wrPinc _ _ | .rdPinit _ | .wrPinit _ _ | .rdDuty _ | .wrDuty _ _ | .rdAmp _
  | .wrAmp _ _ | .rdPhase _ | .wrPhase _ _ | .rdBuf _ | .wrBuf _ _ | .busErr _ _ => .bus
  | .nop | .start | .softreset | .clear | .cmdRsvd _ => .cmd
  | .sinkRead _ => .srd
  | .sinkDone _ | .sinkError _ => .srsp

/-- The encoded request arrives at the port of its format and has that format's length. -/
def Statement (i : Instr) : Prop :=
  (encode i).port = format i ∧ (encode i).toBytes.length = (format i).bytes

theorem rdId : Statement .rdId := ⟨rfl, rfl⟩
theorem wrId (wdata : Word) : Statement (.wrId wdata) := ⟨rfl, rfl⟩
theorem rdStatus : Statement .rdStatus := ⟨rfl, rfl⟩
theorem wrStatus (wdata : Word) : Statement (.wrStatus wdata) := ⟨rfl, rfl⟩
theorem rdCmd : Statement .rdCmd := ⟨rfl, rfl⟩
theorem wrCmd (wdata : Word) : Statement (.wrCmd wdata) := ⟨rfl, rfl⟩
theorem rdChcfg : Statement .rdChcfg := ⟨rfl, rfl⟩
theorem wrChcfg (wdata : Word) : Statement (.wrChcfg wdata) := ⟨rfl, rfl⟩
theorem rdNosc : Statement .rdNosc := ⟨rfl, rfl⟩
theorem wrNosc (wdata : Word) : Statement (.wrNosc wdata) := ⟨rfl, rfl⟩
theorem rdBlklen : Statement .rdBlklen := ⟨rfl, rfl⟩
theorem wrBlklen (wdata : Word) : Statement (.wrBlklen wdata) := ⟨rfl, rfl⟩
theorem rdFramecnt : Statement .rdFramecnt := ⟨rfl, rfl⟩
theorem wrFramecnt (wdata : Word) : Statement (.wrFramecnt wdata) := ⟨rfl, rfl⟩
theorem rdBlkcnt : Statement .rdBlkcnt := ⟨rfl, rfl⟩
theorem wrBlkcnt (wdata : Word) : Statement (.wrBlkcnt wdata) := ⟨rfl, rfl⟩
theorem rdErrinfo : Statement .rdErrinfo := ⟨rfl, rfl⟩
theorem wrErrinfo (wdata : Word) : Statement (.wrErrinfo wdata) := ⟨rfl, rfl⟩
theorem rdPinc (i : BitVec 6) : Statement (.rdPinc i) := ⟨rfl, rfl⟩
theorem wrPinc (i : BitVec 6) (wdata : Word) : Statement (.wrPinc i wdata) := ⟨rfl, rfl⟩
theorem rdPinit (i : BitVec 6) : Statement (.rdPinit i) := ⟨rfl, rfl⟩
theorem wrPinit (i : BitVec 6) (wdata : Word) : Statement (.wrPinit i wdata) := ⟨rfl, rfl⟩
theorem rdDuty (i : BitVec 6) : Statement (.rdDuty i) := ⟨rfl, rfl⟩
theorem wrDuty (i : BitVec 6) (wdata : Word) : Statement (.wrDuty i wdata) := ⟨rfl, rfl⟩
theorem rdAmp (i : BitVec 6) : Statement (.rdAmp i) := ⟨rfl, rfl⟩
theorem wrAmp (i : BitVec 6) (wdata : Word) : Statement (.wrAmp i wdata) := ⟨rfl, rfl⟩
theorem rdPhase (i : BitVec 6) : Statement (.rdPhase i) := ⟨rfl, rfl⟩
theorem wrPhase (i : BitVec 6) (wdata : Word) : Statement (.wrPhase i wdata) := ⟨rfl, rfl⟩
theorem rdBuf (k : BitVec 12) : Statement (.rdBuf k) := ⟨rfl, rfl⟩
theorem wrBuf (k : BitVec 12) (wdata : Word) : Statement (.wrBuf k wdata) := ⟨rfl, rfl⟩
theorem busErr (we : Bool) (addr : BitVec 16) : Statement (.busErr we addr) := ⟨rfl, rfl⟩
theorem nop : Statement .nop := ⟨rfl, rfl⟩
theorem start : Statement .start := ⟨rfl, rfl⟩
theorem softreset : Statement .softreset := ⟨rfl, rfl⟩
theorem clear : Statement .clear := ⟨rfl, rfl⟩
theorem cmdRsvd (w : Word) : Statement (.cmdRsvd w) := ⟨rfl, rfl⟩
theorem sinkRead (k : BitVec 12) : Statement (.sinkRead k) := ⟨rfl, rfl⟩
theorem sinkDone (n : BitVec 13) : Statement (.sinkDone n) := ⟨rfl, rfl⟩
theorem sinkError (n : BitVec 13) : Statement (.sinkError n) := ⟨rfl, rfl⟩

end Sys2Proof.Laws.EncodedFormat
end

