-- ==== Sys2Proof/Tests/Slice0.lean ====
section
/-! SUPPORT. Tests of the model. Expected values come from spec/: the encodings of 30_encoding.md and
opcode_table.json, and the vectors and programs of 95_test_vectors.md, named by their table and row. The
last part holds a witness for the hypotheses of each statement. -/

namespace Sys2Proof.Tests

open Sys2Proof Sys2Proof.Machine Sys2Proof.Claims

/-! ## Helpers -/

/-- The next state, if there is one. -/
def after : Host.Outcome State Fault Refusal → Option State
  | .next s => some s
  | .fault _ => none
  | .refused _ => none

/-- The block of the next state. -/
def blockAfter (i : Instr) (s : State) : Option Block := (after (exec i s)).map State.block

/-- The answer of an operation. -/
def answer (i : Instr) (s : State) : Option Response := (after (exec i s)).map State.resp

/-- A state in which no agent has a step listed. -/
def still (b : Block) : State := { block := b, resp := .none, agenda := [] }

/-- The same block with one request next. -/
def asking (b : Block) (r : Request) : State := { block := b, resp := .none, agenda := [.request r] }

/-- A block of four slots with every field of its own value; NLEFT 1, NRIGHT 2, LEN 48. -/
def sample (seq : SeqState) : Block :=
  { seq := seq, cfgErr := true, sinkErr := false, cmdErr := false, wign := true
    lkind := .square, rkind := .triangle, nleft := 1#7, nright := 2#7, len := 48#13
    frameCnt := 48#13, blkCnt := 0xFFFFFFFF#32
    errInfo := { code := .sinkShort, osc := 0#6, written := 47#13 }
    slots :=
      [Slot.atReset, Slot.atReset,
        { pinc := 0x11111111#32, pinit := 0x22222222#32, duty := 0x33333333#32, amp := 0x4444#16
          phase := 0xFFFFFFFB#32 },
        Slot.atReset]
    buf := [(0x4000, 0x10#8), (0x4001, 0x27#8), (0x4002, 0x78#8), (0x4003, 0xEC#8)] }

/-- Program P4's slots with PINC 2^29: a SQUARE Left slot at +20000, a TRIANGLE Right slot that starts at -90
degrees, and an inactive slot; LEN 2. -/
def demo (seq : SeqState) (frameCnt : BitVec 13) : Block :=
  { seq := seq, cfgErr := false, sinkErr := false, cmdErr := false, wign := false
    lkind := .square, rkind := .triangle, nleft := 1#7, nright := 1#7, len := 2#13
    frameCnt := frameCnt, blkCnt := 0#32
    errInfo := { code := .none, osc := 0#6, written := 0#13 }
    slots :=
      [{ pinc := 0x20000000#32, pinit := 0#32, duty := 0x40000000#32, amp := 20000#16, phase := 0#32 },
        { pinc := 0x20000000#32, pinit := 0xE0000000#32, duty := 0x40000000#32, amp := 20000#16
          phase := 0xE0000000#32 },
        Slot.atReset]
    buf := [] }

/-- A block in IDLE after power-on with the given counts, LEN and first slots, on 32 slots. -/
def configured (nleft nright : BitVec 7) (len : BitVec 13) (slots : List Slot) : Block :=
  { (State.powerOn 32 []).block with
    nleft := nleft, nright := nright, len := len
    slots := slots ++ List.replicate (32 - slots.length) Slot.atReset }

/-- STATUS and ERRINFO after START. -/
def startResult (b : Block) : Word × Word := (statusImage b.start, errinfoImage b.start)

/-! ## WellFormed -/

theorem test_wf_refuses_absent_slot :
    (Instr.rdPinc 32#6).wf 32 = false ∧ (Instr.wrPinc 32#6 9#32).wf 32 = false ∧
    (Instr.rdPinit 32#6).wf 32 = false ∧ (Instr.wrPinit 32#6 9#32).wf 32 = false ∧
    (Instr.rdDuty 32#6).wf 32 = false ∧ (Instr.wrDuty 32#6 9#32).wf 32 = false ∧
    (Instr.rdAmp 32#6).wf 32 = false ∧ (Instr.wrAmp 32#6 9#32).wf 32 = false ∧
    (Instr.rdPhase 32#6).wf 32 = false ∧ (Instr.wrPhase 32#6 9#32).wf 32 = false ∧
    (Instr.rdPinc 31#6).wf 32 = true := by decide

theorem test_wf_refuses_bus_error_on_mapped_address :
    (Instr.busErr false 0x0000#16).wf 32 = false ∧ (Instr.busErr true 0x0020#16).wf 32 = false ∧
    (Instr.busErr false 0x0BF0#16).wf 32 = false ∧ (Instr.busErr true 0x7FFC#16).wf 32 = false ∧
    (Instr.busErr false 0x0024#16).wf 32 = true := by decide

theorem test_wf_refuses_reserved_command_on_defined_word :
    (Instr.cmdRsvd 0#32).wf 32 = false ∧ (Instr.cmdRsvd 3#32).wf 32 = false ∧
    (Instr.cmdRsvd 4#32).wf 32 = true := by decide

/-! ## Decoding: a word of every row, written out from the encoding column of opcode_table.json -/

theorem test_decode_global_reads :
    decode 32 (.bus 0b00000000000000000#17 0#32) = .rdId ∧
    decode 32 (.bus 0b00000000000000100#17 0#32) = .rdStatus ∧
    decode 32 (.bus 0b00000000000001000#17 0#32) = .rdCmd ∧
    decode 32 (.bus 0b00000000000001100#17 0#32) = .rdChcfg ∧
    decode 32 (.bus 0b00000000000010000#17 0#32) = .rdNosc ∧
    decode 32 (.bus 0b00000000000010100#17 0#32) = .rdBlklen ∧
    decode 32 (.bus 0b00000000000011000#17 0#32) = .rdFramecnt ∧
    decode 32 (.bus 0b00000000000011100#17 0#32) = .rdBlkcnt ∧
    decode 32 (.bus 0b00000000000100000#17 0#32) = .rdErrinfo := by decide

theorem test_decode_global_writes :
    decode 32 (.bus 0b10000000000000000#17 9#32) = .wrId 9#32 ∧
    decode 32 (.bus 0b10000000000000100#17 9#32) = .wrStatus 9#32 ∧
    decode 32 (.bus 0b10000000000001000#17 9#32) = .wrCmd 9#32 ∧
    decode 32 (.bus 0b10000000000001100#17 9#32) = .wrChcfg 9#32 ∧
    decode 32 (.bus 0b10000000000010000#17 9#32) = .wrNosc 9#32 ∧
    decode 32 (.bus 0b10000000000010100#17 9#32) = .wrBlklen 9#32 ∧
    decode 32 (.bus 0b10000000000011000#17 9#32) = .wrFramecnt 9#32 ∧
    decode 32 (.bus 0b10000000000011100#17 9#32) = .wrBlkcnt 9#32 ∧
    decode 32 (.bus 0b10000000000100000#17 9#32) = .wrErrinfo 9#32 := by decide

theorem test_decode_slot_reads :
    decode 32 (.bus 0b00000101001100000#17 0#32) = .rdPinc 0b010011#6 ∧
    decode 32 (.bus 0b00000101001100100#17 0#32) = .rdPinit 0b010011#6 ∧
    decode 32 (.bus 0b00000101001101000#17 0#32) = .rdDuty 0b010011#6 ∧
    decode 32 (.bus 0b00000101001101100#17 0#32) = .rdAmp 0b010011#6 ∧
    decode 32 (.bus 0b00000101001110000#17 0#32) = .rdPhase 0b010011#6 := by decide

theorem test_decode_slot_writes :
    decode 32 (.bus 0b10000101001100000#17 9#32) = .wrPinc 0b010011#6 9#32 ∧
    decode 32 (.bus 0b10000101001100100#17 9#32) = .wrPinit 0b010011#6 9#32 ∧
    decode 32 (.bus 0b10000101001101000#17 9#32) = .wrDuty 0b010011#6 9#32 ∧
    decode 32 (.bus 0b10000101001101100#17 9#32) = .wrAmp 0b010011#6 9#32 ∧
    decode 32 (.bus 0b10000101001110000#17 9#32) = .wrPhase 0b010011#6 9#32 := by decide

theorem test_decode_buffer_and_bus_error :
    decode 32 (.bus 0b00110000000000100#17 0#32) = .rdBuf 0b100000000001#12 ∧
    decode 32 (.bus 0b10110000000000100#17 9#32) = .wrBuf 0b100000000001#12 9#32 ∧
    decode 32 (.bus 0b00000110000000000#17 0#32) = .busErr false 0x0C00#16 ∧
    decode 32 (.bus 0b10000000000100100#17 1#32) = .busErr true 0x0024#16 := by decide

theorem test_decode_commands :
    decode 32 (.cmd 0b00000000000000000000000000000000#32) = .nop ∧
    decode 32 (.cmd 0b00000000000000000000000000000001#32) = .start ∧
    decode 32 (.cmd 0b00000000000000000000000000000010#32) = .softreset ∧
    decode 32 (.cmd 0b00000000000000000000000000000011#32) = .clear ∧
    decode 32 (.cmd 0b00000000000000000000000000000100#32) = .cmdRsvd 4#32 ∧
    decode 32 (.cmd 0b00000000000000000000000000010001#32) = .cmdRsvd 0x11#32 := by decide

theorem test_decode_sink :
    decode 32 (.srd 0b100000000001#12) = .sinkRead 2049#12 ∧
    decode 32 (.srsp 0b01000000000001#14) = .sinkDone 4097#13 ∧
    decode 32 (.srsp 0b11000000000001#14) = .sinkError 4097#13 := by decide

/-- T-BUS rows 1 to 17: which addresses are on the map, with NUM_OSC 32 and 64. -/
theorem test_bus_map :
    (List.map (mapped 32)
      [0x0002, 0x0024, 0x0040, 0x0814, 0x081C, 0x0C00, 0x1000, 0x3FFC, 0x8000, 0xFFFC]).any id = false ∧
    (List.map (mapped 32) [0x0BE0, 0x4000, 0x7FFC]).all id = true ∧
    mapped 64 0x0FE0 = true ∧ mapped 64 0x0FF4 = false := by decide

theorem test_decodeTableWord :
    decodeTableWord 24 0x0001C = some .rdBlkcnt ∧ decodeTableWord 24 0x10BE4 = some (.wrPinit 31#6 0#32) ∧
    decodeTableWord 32 0x00000003 = some .clear ∧ decodeTableWord 12 7 = some (.sinkRead 7#12) ∧
    decodeTableWord 16 0x002F = some (.sinkDone 47#13) ∧
    decodeTableWord 16 0x2000 = some (.sinkError 0#13) ∧ decodeTableWord 24 0x20000 = none := by decide

theorem test_withFetchWord_runs_next :
    (after (step (State.reset.withFetchWord 24 0x00000))).map State.resp =
      some (.okayRead 0x50414231#32) ∧
    (after (step (State.reset.withFetchWord 32 1))).map (fun t => t.block.seq) = some .fill := by decide

/-! ## Reads -/

theorem test_global_reads :
    answer .rdId (still (sample .halt)) = some (.okayRead 0x50414231#32) ∧
    answer .rdStatus (still (sample .halt)) = some (.okayRead 0x00000093#32) ∧
    answer .rdCmd (still (sample .halt)) = some (.okayRead 0x00000000#32) ∧
    answer .rdChcfg (still (sample .halt)) = some (.okayRead 0x00000009#32) ∧
    answer .rdNosc (still (sample .halt)) = some (.okayRead 0x00000201#32) ∧
    answer .rdBlklen (still (sample .halt)) = some (.okayRead 0x00000030#32) ∧
    answer .rdFramecnt (still (sample .halt)) = some (.okayRead 0x00000030#32) ∧
    answer .rdBlkcnt (still (sample .halt)) = some (.okayRead 0xFFFFFFFF#32) ∧
    answer .rdErrinfo (still (sample .halt)) = some (.okayRead 0x002F0008#32) := by decide

theorem test_slot_reads :
    answer (.rdPinc 2#6) (still (sample .fill)) = some (.okayRead 0x11111111#32) ∧
    answer (.rdPinit 2#6) (still (sample .fill)) = some (.okayRead 0x22222222#32) ∧
    answer (.rdDuty 2#6) (still (sample .fill)) = some (.okayRead 0x33333333#32) ∧
    answer (.rdAmp 2#6) (still (sample .fill)) = some (.okayRead 0x00004444#32) ∧
    answer (.rdPhase 2#6) (still (sample .fill)) = some (.okayRead 0xFFFFFFFB#32) := by decide

/-- T-FRM row 3: the bytes 10 27 78 EC are the frame word 0xEC782710. -/
theorem test_buffer_reads :
    answer (.rdBuf 0#12) (still (sample .idle)) = some (.okayRead 0xEC782710#32) ∧
    answer (.sinkRead 0#12) (still (sample .idle)) = some (.sinkData 0xEC782710#32) := by decide

/-- T-BUS rows 1 and 3. -/
theorem test_bus_errors :
    answer (.busErr false 0x0002#16) (still (sample .idle)) = some (.errorRead 0#32) ∧
    answer (.busErr true 0x0024#16) (still (sample .idle)) = some .errorWrite ∧
    blockAfter (.busErr true 0x0024#16) (still (sample .idle)) = some (sample .idle) := by decide

/-! ## Writes -/

/-- T-BUS rows 19 to 21 and the examples of R122, R123. -/
theorem test_global_configuration_writes :
    (blockAfter (.wrChcfg 0xFFFFFFFF#32) (still (sample .idle))).map chcfgImage = some 0x0000000F#32 ∧
    (blockAfter (.wrChcfg 0x0000000D#32) (still (sample .idle))).map (fun b => (b.lkind, b.rkind)) =
      some (.square, .silent) ∧
    (blockAfter (.wrNosc 0xFFFFFFFF#32) (still (sample .idle))).map noscImage = some 0x00007F7F#32 ∧
    (blockAfter (.wrNosc 0x0102#32) (still (sample .idle))).map (fun b => (b.nleft, b.nright)) =
      some (2#7, 1#7) ∧
    (blockAfter (.wrBlklen 0x2001#32) (still (sample .idle))).map blklenImage = some 1#32 := by decide

/-- T-BUS row 22 for AMP; each write reaches its own field of its own slot. -/
theorem test_slot_configuration_writes :
    (blockAfter (.wrPinc 3#6 7#32) (still (sample .idle))).bind (fun b => b.slots[3]?) =
      some { Slot.atReset with pinc := 7#32 } ∧
    (blockAfter (.wrPinit 3#6 7#32) (still (sample .idle))).bind (fun b => b.slots[3]?) =
      some { Slot.atReset with pinit := 7#32 } ∧
    (blockAfter (.wrDuty 3#6 7#32) (still (sample .idle))).bind (fun b => b.slots[3]?) =
      some { Slot.atReset with duty := 7#32 } ∧
    (blockAfter (.wrAmp 3#6 0x12710#32) (still (sample .idle))).bind (fun b => b.slots[3]?) =
      some { Slot.atReset with amp := 10000#16 } := by decide

/-- T-BUS row 26: outside IDLE every configuration write only sets WIGN. -/
theorem test_gated_writes :
    ∀ i ∈ [Instr.wrChcfg 1#32, .wrNosc 1#32, .wrBlklen 1#32, .wrPinc 0#6 1#32, .wrPinit 0#6 1#32,
        .wrDuty 0#6 1#32, .wrAmp 0#6 1#32],
      blockAfter i (still (demo .fill 0#13)) = some { demo .fill 0#13 with wign := true } ∧
        answer i (still (demo .fill 0#13)) = some .okayWrite := by decide

/-- T-BUS rows 18 and 23 to 25. -/
theorem test_discarded_writes :
    ∀ i ∈ [Instr.wrId 7#32, .wrStatus 0xFFFFFFFF#32, .wrFramecnt 7#32, .wrBlkcnt 7#32, .wrErrinfo 7#32,
        .wrPhase 0#6 7#32, .wrBuf 5#12 7#32],
      blockAfter i (still (sample .idle)) = some (sample .idle) ∧
        answer i (still (sample .idle)) = some .okayWrite := by decide

/-! ## Commands -/

/-- T-CMD rows 1, 2 and 4, and WR_CMD carrying them. -/
theorem test_nop_and_reserved :
    blockAfter .nop State.reset = some State.reset.block ∧
    (blockAfter (.cmdRsvd 0x11#32) State.reset).map statusImage = some 0x00000040#32 ∧
    (blockAfter (.wrCmd 0x4#32) State.reset).map statusImage = some 0x00000040#32 := by decide

/-- T-CMD rows 5, 6, 7: START, CLEAR and SOFTRESET in HALT. -/
theorem test_commands_in_halt :
    let halted := { demo .halt 0#13 with cfgErr := true }
    (blockAfter .start (still halted)).map statusImage = some 0x00000053#32 ∧
    (blockAfter .clear (still { halted with cmdErr := true, wign := true })).map statusImage =
      some 0x00000013#32 ∧
    (blockAfter .softreset (still halted)).map
      (fun b => (statusImage b, chcfgImage b, blklenImage b)) =
      some (0#32, 0xF#32, 0x1000#32) := by decide

/-- T-CMD row 8: START in FILL sets CMD_ERR and reloads no phase. -/
theorem test_start_in_fill :
    blockAfter .start (still (demo .fill 1#13)) = some { demo .fill 1#13 with cmdErr := true } := by
  decide

/-- R161's example: PINIT 0xE0000000 is loaded, an inactive slot gets 0. -/
theorem test_start_loads_phases :
    (blockAfter (.wrCmd 1#32) (still { demo .idle 0#13 with
        slots := [{ Slot.atReset with pinit := 0xE0000000#32 }, Slot.atReset,
          { Slot.atReset with pinit := 5#32 }] })).map (fun b => (b.seq, b.slots.map Slot.phase)) =
      some (.fill, [0xE0000000#32, 0#32, 0#32]) := by decide

/-- T-VAL rows 1 to 4, 13, 16 and 17. -/
theorem test_validate_counts_and_length :
    startResult (configured 20#7 13#7 4096#13 []) = (0x13#32, 0x1#32) ∧
    startResult (configured 0#7 0#7 0#13 []) = (0x13#32, 0x2#32) ∧
    startResult (configured 0#7 0#7 4097#13 []) = (0x13#32, 0x2#32) ∧
    startResult (configured 40#7 0#7 0#13 []) = (0x13#32, 0x1#32) ∧
    startResult (configured 16#7 16#7 4096#13 []) = (0x1#32, 0x0#32) ∧
    startResult (configured 0#7 0#7 4096#13 []) = (0x1#32, 0x0#32) := by decide

/-- T-VAL rows 5 to 11. -/
theorem test_validate_ranges :
    startResult (configured 1#7 1#7 4096#13
      [Slot.atReset, { Slot.atReset with pinc := 1073741825#32 }]) = (0x13#32, 0x103#32) ∧
    startResult (configured 1#7 0#7 4096#13 [{ Slot.atReset with pinc := 1073741824#32 }]) =
      (0x1#32, 0x0#32) ∧
    startResult (configured 1#7 0#7 4096#13 [{ Slot.atReset with amp := 32768#16 }]) =
      (0x13#32, 0x4#32) ∧
    startResult (configured 0#7 3#7 4096#13
      [Slot.atReset, Slot.atReset, { Slot.atReset with pinit := 0x80000000#32 }]) =
      (0x13#32, 0x205#32) ∧
    startResult (configured 1#7 0#7 4096#13 [{ Slot.atReset with pinit := 0x80000001#32 }]) =
      (0x1#32, 0x0#32) ∧
    startResult (configured 1#7 0#7 4096#13 [{ Slot.atReset with duty := 0x80000001#32 }]) =
      (0x13#32, 0x6#32) ∧
    startResult (configured 1#7 0#7 4096#13 [{ Slot.atReset with duty := 0x80000000#32 }]) =
      (0x1#32, 0x0#32) := by decide

/-- T-VAL rows 12, 14 and 15. -/
theorem test_validate_order :
    startResult (configured 1#7 0#7 4096#13
      [{ Slot.atReset with duty := 0xFFFFFFFF#32, pinc := 0xFFFFFFFF#32 }]) = (0x13#32, 0x3#32) ∧
    startResult (configured 2#7 0#7 4096#13
      [{ Slot.atReset with duty := 0xFFFFFFFF#32 }, { Slot.atReset with pinc := 0xFFFFFFFF#32 }]) =
      (0x13#32, 0x6#32) ∧
    startResult (configured 1#7 0#7 4096#13
      [Slot.atReset, { Slot.atReset with pinit := 0x80000000#32 }, Slot.atReset, Slot.atReset,
        Slot.atReset, { Slot.atReset with pinc := 0xFFFFFFFF#32 }]) = (0x1#32, 0x0#32) := by decide

/-! ## The sink -/

/-- T-SNK rows 1 and 8: BLKCNT counts and wraps; the phases stay. -/
theorem test_sink_done :
    blockAfter (.sinkDone 48#13) (still (sample .drain)) =
      some { sample .fill with frameCnt := 0#13, blkCnt := 0#32 } := by decide

/-- T-SNK rows 2 to 4. -/
theorem test_sink_done_mismatch :
    let b := { sample .drain with cfgErr := false, wign := false }
    (blockAfter (.sinkDone 47#13) (still b)).map (fun b => (statusImage b, errinfoImage b)) =
      some (0x23#32, 0x002F0008#32) ∧
    (blockAfter (.sinkDone 0#13) (still b)).map errinfoImage = some 0x00000008#32 ∧
    (blockAfter (.sinkDone 49#13) (still b)).map errinfoImage = some 0x00310008#32 := by decide

/-- T-SNK rows 5 to 7. -/
theorem test_sink_error :
    (blockAfter (.sinkError 48#13) (still { sample .drain with cfgErr := false, wign := false })).map
      (fun b => (statusImage b, errinfoImage b)) = some (0x23#32, 0x00000007#32) ∧
    blockAfter (.sinkError 0#13) (still (sample .fill)) = some (sample .fill) ∧
    blockAfter (.sinkDone 48#13) (still (sample .halt)) = some (sample .halt) := by decide

/-! ## Arithmetic -/

/-- T-ADV rows 1 to 8. -/
theorem test_advance :
    advance 0 0 = 0 ∧ advance 2147483000 1000 = 352 ∧ advance 2147483647 1073741824 = 1073741823 ∧
    advance (-5) 3 = -2 ∧ advance (-1073741824) 1073741824 = 0 ∧ advance 1073741824 1073741824 = 0 ∧
    advance (-2147483647) 0 = -2147483647 ∧
    advance (-2147483647) 1073741824 = -1073741823 := by decide

/-- T-SIN: both tables, and the sum of the 257 entries. -/
theorem test_sine :
    (List.map (fun i : Int => sinLut (i * 2097152))
      [0, 1, 128, 255, 256, 257, 384, 511, 512, 513, 640, 767, 768, 769, 1023]) =
      [0, 201, 23170, 32767, 32768, 32767, 23170, 201, 0, -201, -23170, -32767, -32768, -32767, -201] ∧
    (List.map sinLut [2097151, 536870911, -1, -536870912, -1073741824, -2147483647]) =
      [0, 32767, -201, -32768, 0, 0] := by decide

theorem test_quarter_wave_table : quarterWave.length = 257 ∧ quarterWave.sum = 5356720 := by
  constructor
  · simp only [quarterWave, List.length_append]; decide
  · simp only [quarterWave, List.sum_append]; decide

/-- T-SQ. -/
theorem test_square :
    eval .square 536870911 536870912 5000 = 163840000 ∧
    eval .square 536870912 536870912 5000 = -163840000 ∧
    eval .square 0 0 5000 = -163840000 ∧ eval .square 2147483647 0 5000 = -163840000 ∧
    eval .square 2147483647 2147483648 5000 = 163840000 ∧ eval .square (-1) 0 5000 = 163840000 := by
  decide

/-- T-TRI rows 1 to 8. -/
theorem test_triangle :
    (List.map (fun v => eval .triangle v 1073741824 1000)
      [0, 1, 536870912, 1073741823, 1073741824, 1073741825, 1610612736, 2147483647]) =
      [-32768000, -32767999, 0, 32767999, 32768000, 32767999, 0, -32767999] := by decide

/-- T-TRI rows 9 to 23. -/
theorem test_triangle_corners :
    (List.map (fun v => eval .triangle v 0 1000) [0, 1, 1073741824, 2147483647]) =
      [-32768000, 32768000, 0, -32767999] ∧
    (List.map (fun v => eval .triangle v 2147483648 1000) [0, 1073741824, 2147483646, 2147483647]) =
      [-32768000, 0, 32767999, 32768000] ∧
    eval .triangle (-536870912) 1073741824 1000 = -65536000 ∧
    eval .triangle (-536870912) 1073741824 32767 = -2147418112 ∧
    eval .triangle (-2147483647) 0 32767 = -4611545279865323520 ∧
    (List.map (fun v => eval .triangle v 536870912 32767) [0, 536870912, 1342177280, 2147483647]) =
      [-1073709056, 1073709056, 0, -1073709054] := by decide

/-- T-SIL and T-SUM rows 1 to 11. -/
theorem test_silent_and_narrowing :
    eval .silent 12345 0 32767 = 0 ∧
    (List.map narrow [0, 327680000, 32767, -32767, 49151, -49152, 1073741823, 1073741824, -1073741824,
      -1073741825, 2147418112]) =
      [0, 10000, 0, 0, 1, -1, 32767, 32767, -32768, -32768, 32767] := by decide

/-- T-FRM. -/
theorem test_frame_word :
    frameWord 0 0 = 0x00000000#32 ∧ frameWord (-1) 2 = 0x0002FFFF#32 ∧
    frameWord 10000 (-5000) = 0xEC782710#32 ∧ frameWord (-32768) 32767 = 0x7FFF8000#32 ∧
    frameWord 32767 (-32768) = 0x80007FFF#32 ∧ frameWord 0 (-5000) = 0xEC780000#32 := by decide

/-- One FRAME_STEP as in P4's first step, one Left slot fewer: L = 20000, R saturates at -32768; both phases
move by 2^29. -/
theorem test_frame_step :
    (after (step (still (demo .fill 0#13)))).map
      (fun t => (t.block.buf, t.block.frameCnt, t.block.seq, t.block.slots.map Slot.phase)) =
      some ([(0x4000, 0x20#8), (0x4001, 0x4E#8), (0x4002, 0x00#8), (0x4003, 0x80#8)], 1#13, .fill,
        [0x20000000#32, 0#32, 0#32]) := by decide

/-- R214: the last frame of a block enters DRAIN. -/
theorem test_last_frame_enters_drain :
    (after (step (still (demo .fill 1#13)))).map (fun t => (t.block.seq, t.block.frameCnt)) =
      some (.drain, 2#13) := by decide

/-! ## Witnesses: states and operands that meet the hypotheses of each statement -/

theorem test_meets_fill_inv : (demo .fill 0#13).Inv ∧ (demo .fill 1#13).Inv := by
  constructor <;> refine ⟨by decide, by decide, by decide, by decide, ?_, ?_, ?_, ?_⟩ <;> decide

theorem test_meets_drain_inv : (demo .drain 2#13).Inv := by
  refine ⟨by decide, by decide, by decide, by decide, ?_, ?_, ?_, ?_⟩ <;> decide

theorem test_meets_idle_inv : (configured 1#7 0#7 4096#13 []).Inv := by
  refine ⟨by decide, by decide, by decide, by decide, ?_, ?_, ?_, ?_⟩ <;> decide

/-- HALT after T-SNK row 2's short write, and after a rejected START (code 2). -/
theorem test_meets_halt_inv :
    { demo .halt 2#13 with
      sinkErr := true, errInfo := { code := .sinkShort, osc := 0#6, written := 1#13 } : Block }.Inv ∧
    { configured 0#7 0#7 0#13 [] with
      seq := .halt, cfgErr := true
      errInfo := { code := .cfgBlklen, osc := 0#6, written := 0#13 } : Block }.Inv := by
  constructor <;> refine ⟨by decide, by decide, by decide, by decide, ?_, ?_, ?_, ?_⟩ <;> decide

/-- O1 and O3: the bounds of NUM_OSC, the last slot of each, and a BUS_ERR and CMD_RSVD at the edge. -/
theorem test_meets_DecodeOfEncodeIsIdentity :
    (64 ≤ 64 ∧ (Instr.wrPinc 63#6 9#32).wf 64 = true) ∧ (1 ≤ 64 ∧ (Instr.rdPhase 0#6).wf 1 = true) ∧
    (Instr.busErr true 0x0C00#16).wf 32 = true ∧ (Instr.cmdRsvd 4#32).wf 32 = true := by decide

/-- O4: a write that is no BUS_ERR. -/
theorem test_meets_EncodeOfDecodeKeepsRequest :
    (0x10BE0#17).getLsbD 16 = true ∧ decode 32 (.bus 0x10BE0#17 9#32) = .wrPinc 31#6 9#32 := by decide

/-- O5: an address of each clause at both ends of its range, read and write, and mapped neighbours. -/
theorem test_meets_MisalignedOrUnmappedIsError :
    let ask := fun (we : Bool) (a : Nat) =>
      nextInstr (asking State.reset.block (.bus (BitVec.ofNat 17 ((if we then 0x10000 else 0) + a)) 1#32))
    (∀ we, ∀ a ∈ [0x0001, 0x4002, 0xFFFF, 0x0024, 0x07FC, 0x0814, 0x0BFC, 0x0C00, 0x0FFC, 0x1000, 0x3FFC,
      0x8000, 0xFFFC], ask we a = some (.busErr we (BitVec.ofNat 16 a))) ∧
    ask false 0x0020 = some .rdErrinfo ∧ ask true 0x0800 = some (.wrPinc 0#6 1#32) ∧
    ask false 0x0BF0 = some (.rdPhase 31#6) ∧ ask false 0x4000 = some (.rdBuf 0#12) ∧
    ask true 0x7FFC = some (.wrBuf 4095#12 1#32) := by decide

/-- O6, O25: the least reserved command word and the largest. -/
theorem test_meets_reserved_command : 4 ≤ (4#32 : Word).toNat ∧ 4 ≤ (0xFFFFFFFF#32 : Word).toNat := by
  decide

/-- O8: an agenda of each kind. -/
theorem test_meets_StepRunsTheDecodedRequest :
    (asking (demo .fill 0#13) (.srd 0#12)).agenda = .request (.srd 0#12) :: [] ∧
    { still (demo .fill 0#13) with agenda := [.rst] : State }.agenda = .rst :: [] ∧
    SeqActs (still (demo .fill 0#13)) ∧
    SeqActs { still (demo .fill 0#13) with agenda := [.seq] } :=
  ⟨rfl, rfl, .inl rfl, .inr rfl⟩

/-- O9: FILL at the first and the last index, and each other state. -/
theorem test_meets_SeqActsExactlyInFill :
    SeqActs (still (demo .fill 0#13)) ∧ (demo .fill 0#13).seq = .fill ∧
    (demo .fill 0#13).frameCnt.toNat < 4096 ∧ (demo .fill 4095#13).frameCnt.toNat < 4096 ∧
    SeqActs (still (demo .drain 2#13)) ∧ (demo .drain 2#13).seq ≠ .fill ∧
    (still (demo .halt 2#13)).agenda = [] :=
  ⟨.inl rfl, rfl, by decide, by decide, .inl rfl, by decide, rfl⟩

/-- O10: a state whose block is the reset block. -/
theorem test_meets_ResetSetsEveryRegisterAndKeepsBuf :
    (still (demo .drain 2#13).reset).block = (demo .drain 2#13).reset := rfl

/-- O12: a read, a gated write in IDLE, and IDLE without CMD_ERR. -/
theorem test_meets_NoReadHasASideEffect :
    isRead (.rdPhase 31#6) = true ∧ isRead (.busErr false 0x0024#16) = true ∧
    isConfigWrite (.wrAmp 0#6 1#32) = true ∧ (demo .idle 0#13).seq = .idle ∧
    (demo .idle 0#13).cmdErr = false := by decide

/-- O17, O23: an existing slot, first and last, and a slot index below a NUM_OSC. -/
theorem test_meets_SlotFieldsReadBack :
    (demo .idle 0#13).slots[(2#6 : BitVec 6).toNat]? = some Slot.atReset ∧
    (sample .idle).slots[(0#6 : BitVec 6).toNat]? = some Slot.atReset ∧
    (63#6 : BitVec 6).toNat < 64 := by decide

/-- O19: the first slot that does not exist, with NUM_OSC 3, and the last index. -/
theorem test_meets_AbsentSlotIsABusError :
    (demo .idle 0#13).slots.length ≤ (3#6 : BitVec 6).toNat ∧
    (demo .idle 0#13).slots.length ≤ (63#6 : BitVec 6).toNat ∧
    answer (.rdPinc 3#6) (still (demo .idle 0#13)) = some (.errorRead 0#32) ∧
    answer (.wrPhase 63#6 1#32) (still (demo .idle 0#13)) = some .errorWrite := by decide

/-- O20, O21: well-formed writes of each class, in IDLE and outside it. -/
theorem test_meets_write_classes :
    (isReadOnlyWrite (.wrPhase 2#6 1#32) = true ∧
      (Instr.wrPhase 2#6 1#32).wf (demo .idle 0#13).numOsc = true) ∧
    (isConfigWrite (.wrAmp 2#6 1#32) = true ∧
      (Instr.wrAmp 2#6 1#32).wf (demo .idle 0#13).numOsc = true) ∧
    (demo .idle 0#13).seq = .idle ∧ (demo .halt 0#13).seq ≠ .idle ∧ (demo .fill 0#13).seq ≠ .idle := by
  decide

/-- O24: IDLE and the last slot, with all bits of the data set. -/
theorem test_meets_WrittenConfigurationReadsBackMasked :
    (demo .idle 0#13).seq = .idle ∧ (2#6 : BitVec 6).toNat < (demo .idle 0#13).numOsc ∧
    (blockAfter (.wrAmp 2#6 0xFFFFFFFF#32) (still (demo .idle 0#13))).isSome = true := by decide

/-- O26: the three clauses of START, with an active and an inactive slot of an accepted one. -/
theorem test_meets_StartFollowsItsRule :
    (demo .drain 2#13).seq ≠ .idle ∧
    ((configured 0#7 0#7 4097#13 []).seq = .idle ∧
      (configured 0#7 0#7 4097#13 []).validate = some (.cfgBlklen, 0#6)) ∧
    ((demo .idle 0#13).seq = .idle ∧ (demo .idle 0#13).validate = none ∧
      (demo .idle 0#13).slots[2]? = some Slot.atReset ∧
      ¬ 2 < (demo .idle 0#13).nleft.toNat + (demo .idle 0#13).nright.toNat ∧
      1 < (demo .idle 0#13).nleft.toNat + (demo .idle 0#13).nright.toNat) := by decide

/-- O27: each check at the first value that fails, behind a legal slot 0, and the largest legal values. -/
theorem test_meets_ValidateReportsTheFirstFailingCheck :
    let legal : Slot :=
      { pinc := 0x40000000#32, pinit := 0x80000001#32, duty := 0x80000000#32, amp := 32767#16
        phase := 0#32 }
    WithinRanges legal ∧ (configured 32#7 0#7 1#13 []).numOsc ≤ 64 ∧
    (configured 32#7 1#7 1#13 []).validate = some (.cfgNosc, 0#6) ∧
    (configured 32#7 0#7 0#13 []).validate = some (.cfgBlklen, 0#6) ∧
    (configured 32#7 0#7 4097#13 []).validate = some (.cfgBlklen, 0#6) ∧
    (configured 2#7 0#7 1#13 [legal, { legal with pinc := 0x40000001#32, amp := 32768#16 }]).validate =
      some (.cfgPinc, 1#6) ∧
    (configured 0#7 2#7 4096#13 [legal, { legal with amp := 32768#16, pinit := 0x80000000#32 }]).validate =
      some (.cfgAmp, 1#6) ∧
    (configured 1#7 1#7 1#13 [legal, { legal with pinit := 0x80000000#32, duty := 0x80000001#32 }]).validate =
      some (.cfgPinit, 1#6) ∧
    (configured 1#7 1#7 1#13 [legal, { legal with duty := 0x80000001#32 }]).validate =
      some (.cfgDuty, 1#6) ∧
    (configured 1#7 1#7 4096#13 [legal, legal]).validate = none := by
  unfold WithinRanges
  decide

/-- O28: a legal configuration in IDLE and one that is not. -/
theorem test_meets_StartRunsExactlyLegalConfigurations :
    (demo .idle 0#13).seq = .idle ∧ PassesChecks (demo .idle 0#13) ∧
    (configured 33#7 0#7 1#13 []).seq = .idle ∧ ¬ PassesChecks (configured 33#7 0#7 1#13 []) := by
  unfold PassesChecks WithinRanges
  decide

/-- O29, O30: DRAIN and another state, and a count that is LEN and one that is not. -/
theorem test_meets_SinkDoneFollowsItsRule :
    (demo .fill 0#13).seq ≠ .drain ∧ (demo .drain 2#13).seq = .drain ∧
    2#13 = (demo .drain 2#13).len ∧ 0#13 ≠ (demo .drain 2#13).len ∧
    8191#13 ≠ (demo .drain 2#13).len := by decide

/-- O32: DRAIN with each of the two orders. -/
theorem test_meets_SoftresetAndSinkDoneInEitherOrder :
    (demo .drain 2#13).seq = .drain ∧
    { still (demo .drain 2#13) with
      agenda := [.request (.cmd 2#32), .request (encode (.sinkDone 2#13))] : State }.agenda =
      .request (.cmd 2#32) :: .request (encode (.sinkDone (demo .drain 2#13).len)) :: [] ∧
    { still (demo .drain 2#13) with
      agenda := [.request (encode (.sinkDone 2#13)), .request (.cmd 2#32)] : State }.agenda =
      .request (encode (.sinkDone (demo .drain 2#13).len)) :: .request (.cmd 2#32) :: [] :=
  ⟨rfl, rfl, rfl⟩

/-- O33: FILL at the first and the last index, an active and an inactive slot; and a state that is not
FILL. -/
theorem test_meets_FrameStepFollowsItsRule :
    (demo .idle 0#13).seq ≠ .fill ∧ (demo .fill 0#13).seq = .fill ∧
    (demo .fill 0#13).frameCnt.toNat < 4096 ∧
    ({ demo .fill 4095#13 with len := 4096#13 } : Block).frameCnt.toNat < 4096 ∧
    (demo .fill 0#13).slots[2]? = some Slot.atReset ∧
    (∀ sl ∈ (demo .fill 0#13).slots, sl.pinc.toNat ≤ 2 ^ 30 ∧ sl.phase ≠ 0x80000000#32) := by decide

/-- O34: a sum of each clause, at the boundaries. -/
theorem test_meets_NarrowingTruncatesThenSaturates :
    (-1073774592 < (-1073774591 : Int) ∧ (-1073774591 : Int) < 1073741824 ∧
      narrow (-1073774591) = -32768) ∧
    ((1073741823 : Int) < 1073741824 ∧ narrow 1073741823 = 32767) ∧
    (1073741824 ≤ (1073741824 : Int) ∧ narrow 1073741824 = 32767) ∧
    ((-1073741824 : Int) ≤ -1073741824 ∧ narrow (-1073741824) = -32768) := by decide

/-- O35: the last index with the extreme samples, an address on each side, another index. -/
theorem test_meets_FrameWordLayoutInMemory :
    4095 < 4096 ∧ -32768 ≤ (-32768 : Int) ∧ (32767 : Int) ≤ 32767 ∧
    0x7FFB < 0x4000 + 4 * 4095 ∧ 0x4000 + 4 * 4095 + 4 ≤ 0x8000 ∧ 4094 ≠ 4095 := by decide

/-- O36: each clause at the boundary of its comparison, with a clamped threshold on either end. -/
theorem test_meets_SquareTriangleAndSilentFormulas :
    ((4 : Int) < 5 ∧ (5 : Int) ≤ 5) ∧ (0 : Int) < max 1 (min 0 (2 ^ 31 - 1)) ∧
    max 1 (min 0 (2 ^ 31 - 1)) ≤ (1 : Int) ∧
    max 1 (min (2 ^ 31) (2 ^ 31 - 1)) ≤ (2147483647 : Int) := by decide

/-- O37: the clauses over table points at both ends of their ranges, against T-SIN. -/
theorem test_meets_SineLookupSymmetries :
    0 ≤ 512 ∧ 512 ≤ 512 ∧ 0 < 256 ∧ 255 < 256 ∧
    sinLut ((512 - 1) * 2097152) = 201 ∧ sinLut (1 * 2097152) = 201 ∧
    sinLut (255 * 2097152) = 32767 ∧ sinLut ((255 + 1) * 2097152) = 32768 := by decide

/-- O38, O39, O40: the ends of the ranges of phase, threshold and amplitude. -/
theorem test_meets_waveform_ranges :
    (0 ≤ (2147483646 : Int) ∧ (2147483646 : Int) + 1 < 2147483648) ∧
    (0 ≤ (2147483648 : Int) ∧ (2147483648 : Int) ≤ 2147483648) ∧ (32767 : Int) ≤ 32767 ∧
    -2147483648 < (-2147483647 : Int) ∧
    eval .triangle 2147483647 2147483648 32767 = 32767 * 32768 ∧
    eval .triangle 0 0 32767 = -(32767 * 32768) := by decide

/-- O41: FILL with one channel SILENT. -/
theorem test_meets_SilentChannelSamplesAreZero :
    let b := { demo .fill 0#13 with rkind := .silent }
    b.seq = .fill ∧ b.frameCnt.toNat < 4096 ∧ b.rkind = .silent ∧
      { b with lkind := .silent }.lkind = .silent := by decide

/-- O42, O43: the ends of the ranges of phase and increment. -/
theorem test_meets_AdvanceStaysInRange :
    -2147483648 < (-2147483647 : Int) ∧ (-2147483647 : Int) < 2147483648 ∧
    0 ≤ (1073741824 : Int) ∧ (1073741824 : Int) ≤ 1073741824 ∧
    advance (-2147483647) 1073741824 = -1073741823 := by decide

/-- O44: R169's 12000 Hz, period 4. -/
theorem test_meets_PhaseIsPeriodic :
    0 ≤ (2147483647 : Int) ∧ (2147483647 : Int) < 2147483648 ∧ 0 < 536870912 ∧
    536870912 ≤ 1073741824 ∧ (fun p => advance p 536870912)^[4] 2147483647 = 2147483647 := by decide

/-- O45: four frames to a period, a quarter of them at plus A. -/
theorem test_meets_SquareDutyFraction :
    0 < 536870912 ∧ 536870912 ≤ 1073741824 ∧ 536870912 * 4 = 2147483648 ∧ 536870912 ≤ 2147483648 ∧
    0 < 5000 := by decide

/-- O46: the start of a block, with the largest k. -/
theorem test_meets_BlockFillsGapFree :
    (still (demo .fill 0#13)).Inv ∧ (demo .fill 0#13).seq = .fill ∧
    (demo .fill 0#13).frameCnt = 0#13 ∧ (still (demo .fill 0#13)).agenda = [] ∧
    2 ≤ (demo .fill 0#13).len.toNat :=
  ⟨test_meets_fill_inv.1, rfl, rfl, rfl, by decide⟩

/-- O47, O49, O50, O51: a state of the invariant with a next state. -/
theorem test_meets_StepKeepsTheInvariant :
    (still (demo .fill 1#13)).Inv ∧ ∃ t, step (still (demo .fill 1#13)) = .next t :=
  ⟨test_meets_fill_inv.2, _, rfl⟩

/-- O48: the bounds of NUM_OSC with a listed byte of BUF. -/
theorem test_meets_InvariantHoldsAtPowerOn :
    1 ≤ 1 ∧ 64 ≤ 64 ∧ Memory.wf [(0x4000, 7#8), (0x7FFF, 9#8)] = true ∧
    1 ≤ (demo .halt 0#13).numOsc ∧ (demo .halt 0#13).numOsc ≤ 64 ∧
    (demo .halt 0#13).buf.wf = true := by decide

/-- O52: a step that changes STATE, one of each kind. -/
theorem test_meets_OnlyListedStateTransitions :
    let seqAfter := fun (s : State) => (after (step s)).map fun t => t.block.seq
    seqAfter (asking (demo .idle 0#13) (.cmd 1#32)) = some .fill ∧
    seqAfter (asking (configured 0#7 0#7 0#13 []) (.cmd 1#32)) = some .halt ∧
    seqAfter (still (demo .fill 1#13)) = some .drain ∧
    seqAfter (asking (demo .drain 2#13) (.srsp 2#14)) = some .fill ∧
    seqAfter (asking (demo .drain 2#13) (.srsp 0x2000#14)) = some .halt ∧
    seqAfter (asking (demo .halt 2#13) (.bus 0x10008#17 2#32)) = some .idle := by decide

/-- O53 to O56: HALT with a step that resets and one that does not, and a flag that is set. -/
theorem test_meets_whole_machine_rules :
    (demo .halt 2#13).seq = .halt ∧ Resets (asking (demo .halt 2#13) (.cmd 2#32)) ∧
    ¬ Resets (asking (demo .halt 2#13) (.cmd 3#32)) ∧ Clears (asking (demo .halt 2#13) (.cmd 3#32)) ∧
    ¬ Resets (still (demo .fill 0#13)) ∧ ¬ Clears (still (demo .fill 0#13)) ∧
    (sample .fill).wign = true ∧ (demo .fill 0#13).seq ≠ .idle := by
  refine ⟨rfl, .inr (.inl rfl), ?_, .inl rfl, ?_, ?_, rfl, by decide⟩
  · rintro (h | h | h) <;> exact absurd h (by decide)
  · rintro (h | h | h) <;> exact absurd h (by decide)
  · rintro (h | h) <;> exact absurd h (by decide)

/-- O56: a step that writes ERRINFO and is no reset. -/
theorem test_meets_ErrinfoIsWrittenOnlyOnHaltEntry :
    (after (step (asking (demo .drain 2#13) (.srsp 1#14)))).map (fun t => t.block.errInfo) =
      some { code := .sinkShort, osc := 0#6, written := 1#13 } ∧
    ¬ Resets (asking (demo .drain 2#13) (.srsp 1#14)) := by
  refine ⟨by decide, ?_⟩
  rintro (h | h | h) <;> exact absurd h (by decide)

/-- O58: a byte that a step of SEQ changes, from a written value. -/
theorem test_meets_BufIsWrittenOnlyByFrameStep :
    let b := { demo .fill 0#13 with buf := [(0x4000, 0xFF#8)] }
    b.buf.readByte 0x4000 = 0xFF#8 ∧
    (after (step (still b))).map (fun t => t.block.buf.readByte 0x4000) = some 0x20#8 := by decide

/-- O59: the invariant, a step, no reset, and the largest BLKCNT that does not wrap. -/
theorem test_meets_FrameTotalCountsFrameSteps :
    (still (demo .fill 1#13)).Inv ∧ (∃ t, step (still (demo .fill 1#13)) = .next t) ∧
    ¬ Resets (still (demo .fill 1#13)) ∧ (demo .fill 1#13).blkCnt.toNat + 1 < 2 ^ 32 ∧
    (0xFFFFFFFE#32 : Word).toNat + 1 < 2 ^ 32 := by
  refine ⟨test_meets_fill_inv.2, ⟨_, rfl⟩, ?_, by decide, by decide⟩
  rintro (h | h | h) <;> exact absurd h (by decide)

end Sys2Proof.Tests
end

section
/-! PROOFS. 00_scope.md: the number of slots is fixed for the machine. A step that answers a next state has
one of the effects of `Block.Effect` on the block, and none of them changes the length of the slot file. -/

namespace Sys2Proof.Machine

/-- The inversion of a step that answers: the new block is an effect of the old one, and the head of the
agenda is taken. -/
theorem step_eq_next {s t : State} (h : step s = .next t) :
    s.block.Effect t.block ∧ t.agenda = s.agenda.tail := by
  obtain ⟨hfault, -, -⟩ | ⟨b, r, hnext, he⟩ := step_effect s
  · simp [hfault] at h
  · obtain rfl : _ = t := Host.Outcome.next.inj (hnext.symm.trans h)
    exact ⟨he, rfl⟩

/-- No effect adds or removes a slot: a slot file is only updated in place (10_state.md R31). -/
theorem Block.Effect.numOsc_eq {b b' : Block} (h : b.Effect b') : b'.numOsc = b.numOsc := by
  cases h with
  | same => rfl
  | ignoredWrite => exact b.numOsc_setWign
  | configured _ _ hb => exact hb.numOsc_eq
  | commandError => exact b.numOsc_setCmdErr
  | cleared => exact b.numOsc_clearWarnings
  | reset => exact b.numOsc_reset
  | rejected => simp
  | started => exact b.numOsc_phaseLoad
  | framed => exact b.numOsc_frameStep
  | accepted => exact b.numOsc_acceptBlock
  | sinkFailed => simp
  | sinkShort => simp

/-- Settles O51, from the effects a step can have on the block. -/
theorem noStepChangesNumOsc : Obligations.NoStepChangesNumOsc := by
  intro s t h
  exact (step_eq_next h).1.numOsc_eq

end Sys2Proof.Machine
end

section
/-! PROOFS. 10_state.md, the invariant. `Block.Inv` is cut in two: what it says of every block
(`Block.WellKept`) and what it says of the sequencer state the block is in (`Block.SeqInv`). Each effect of
`Block.Effect` is then checked against the two parts. -/

namespace Sys2Proof.Machine

/-! ## The two parts of the invariant -/

/-- What the invariant says whatever the sequencer state: NUM_OSC in range, BUF canonical, every PHASE above
-P (10_state.md R36). -/
def Block.WellKept (b : Block) : Prop :=
  1 ≤ b.numOsc ∧ b.numOsc ≤ Config.numOscMax ∧ b.buf.wf = true ∧
    ∀ sl ∈ b.slots, sl.phase ≠ 0x80000000#32

/-- What the invariant says of the sequencer state that the block is in. -/
def Block.SeqInv (b : Block) : Prop :=
  match b.seq with
  | .idle => b.NoError ∧ b.AtRest
  | .fill => b.NoError ∧ b.Started ∧ b.frameCnt.toNat < b.len.toNat
  | .drain => b.NoError ∧ b.Started ∧ b.frameCnt = b.len
  | .halt => b.ConfigHalt ∨ b.SinkHalt

theorem Block.inv_iff (b : Block) : b.Inv ↔ b.WellKept ∧ b.SeqInv := by
  unfold Block.WellKept Block.SeqInv
  constructor
  · rintro ⟨hmin, hmax, hwf, hphase, hidle, hfill, hdrain, hhalt⟩
    refine ⟨⟨hmin, hmax, hwf, hphase⟩, ?_⟩
    cases hs : b.seq with
    | idle => exact hidle hs
    | fill => exact hfill hs
    | drain => exact hdrain hs
    | halt => exact hhalt hs
  · rintro ⟨⟨hmin, hmax, hwf, hphase⟩, hseq⟩
    refine ⟨hmin, hmax, hwf, hphase, ?_, ?_, ?_, ?_⟩ <;> intro hs <;> simpa only [hs] using hseq

theorem Block.seqInv_idle_iff {b : Block} (h : b.seq = .idle) :
    b.SeqInv ↔ b.NoError ∧ b.AtRest := by
  simp only [Block.SeqInv, h]

theorem Block.seqInv_fill_iff {b : Block} (h : b.seq = .fill) :
    b.SeqInv ↔ b.NoError ∧ b.Started ∧ b.frameCnt.toNat < b.len.toNat := by
  simp only [Block.SeqInv, h]

theorem Block.seqInv_drain_iff {b : Block} (h : b.seq = .drain) :
    b.SeqInv ↔ b.NoError ∧ b.Started ∧ b.frameCnt = b.len := by
  simp only [Block.SeqInv, h]

theorem Block.seqInv_halt_iff {b : Block} (h : b.seq = .halt) :
    b.SeqInv ↔ b.ConfigHalt ∨ b.SinkHalt := by
  simp only [Block.SeqInv, h]

/-! ## Warnings -/

/-- The invariant does not read the two flags that CLEAR clears. -/
theorem Block.inv_with_warnings (b : Block) (cmdErr wign : Bool) :
    { b with cmdErr := cmdErr, wign := wign }.Inv ↔ b.Inv := Iff.rfl

/-! ## Reset and configuration -/

/-- A reset block is at rest, whatever block was reset (10_state.md R41). -/
theorem Block.reset_inv {b : Block} (h : b.WellKept) : b.reset.Inv := by
  obtain ⟨hmin, hmax, hwf, -⟩ := h
  have hphase : ∀ sl ∈ b.reset.slots, sl.phase = 0#32 := by
    intro sl hsl
    obtain ⟨-, -, rfl⟩ := List.mem_map.1 hsl
    rfl
  refine b.reset.inv_iff.2 ⟨⟨?_, ?_, hwf, fun sl hsl => ?_⟩, ?_⟩
  · rwa [b.numOsc_reset]
  · rwa [b.numOsc_reset]
  · rw [hphase sl hsl]
    decide
  · exact (Block.seqInv_idle_iff rfl).2 ⟨⟨rfl, rfl, rfl⟩, rfl, rfl, hphase⟩

/-- A configuration write moves no phase, so it cannot add a phase value. -/
theorem Block.Reconfigured.forall_phase {b b' : Block} (h : b.Reconfigured b') (p : Word → Prop)
    (hp : ∀ sl ∈ b.slots, p sl.phase) : ∀ sl ∈ b'.slots, p sl.phase := by
  obtain ⟨_, _, _, _, _, sls, rfl, hmap⟩ := h
  intro sl hsl
  have hmem : sl.phase ∈ b.slots.map Slot.phase := hmap ▸ List.mem_map_of_mem hsl
  obtain ⟨sl', hsl', heq⟩ := List.mem_map.1 hmem
  exact heq ▸ hp sl' hsl'

/-- In IDLE the invariant asks nothing of the configuration. -/
theorem Block.Reconfigured.inv {b b' : Block} (h : b.Reconfigured b') (hs : b.seq = .idle)
    (hb : b.Inv) : b'.Inv := by
  obtain ⟨⟨hmin, hmax, hwf, hne⟩, hseq⟩ := b.inv_iff.1 hb
  obtain ⟨herr, hframe, hblk, hzero⟩ := (Block.seqInv_idle_iff hs).1 hseq
  have hne' := h.forall_phase (· ≠ 0x80000000#32) hne
  have hzero' := h.forall_phase (· = 0#32) hzero
  rw [← h.numOsc_eq] at hmin hmax
  obtain ⟨_, _, _, _, _, _, rfl, -⟩ := h
  exact (Block.inv_iff _).2
    ⟨⟨hmin, hmax, hwf, hne'⟩, (Block.seqInv_idle_iff (by exact hs)).2 ⟨herr, hframe, hblk, hzero'⟩⟩

/-! ## A started block, slot by slot -/

theorem Block.ConfigLegal.slot {b : Block} (h : b.ConfigLegal) {i : Nat} (hi : i < b.slots.length)
    (hact : i < b.numActive) : (b.slots[i]).Legal := by
  obtain ⟨-, -, -, hlegal⟩ := h
  exact hlegal _ ((b.mem_activeSlots _).2 ⟨i, hi, hact, rfl⟩)

/-- What makes a block with a legal configuration started, said of its slots by their index. -/
theorem Block.started_of_slots {b : Block} (hosc : b.numActive ≤ b.numOsc) (hmin : 1 ≤ b.len.toNat)
    (hmax : b.len.toNat ≤ Config.bufFrames)
    (hact : ∀ i, ∀ h : i < b.slots.length, i < b.numActive → (b.slots[i]).Legal)
    (hrest : ∀ i, ∀ h : i < b.slots.length, b.numActive ≤ i → (b.slots[i]).phase = 0#32) :
    b.Started := by
  refine ⟨⟨hosc, hmin, hmax, fun sl hsl => ?_⟩, fun sl hsl => ?_⟩
  · obtain ⟨i, hi, hlt, rfl⟩ := (b.mem_activeSlots sl).1 hsl
    exact hact i hi hlt
  · obtain ⟨i, hi, hle, rfl⟩ := (b.mem_inactiveSlots sl).1 hsl
    exact hrest i hi hle

/-! ## START -/

/-- START validates exactly what `Block.ConfigLegal` says (40_config_and_commands.md R145). -/
theorem Block.validate_eq_none_iff (b : Block) : b.validate = none ↔ b.ConfigLegal := by
  have hslots : firstFailing 0 b.activeSlots = none ↔ ∀ sl ∈ b.activeSlots, sl.Legal := by
    simp only [firstFailing_eq_none_iff, Slot.check_eq_none_iff]
  unfold Block.validate Block.ConfigLegal
  constructor
  · intro h
    split at h
    · cases h
    · split at h
      · cases h
      · exact ⟨by omega, by omega, by omega, hslots.1 h⟩
  · rintro ⟨hosc, hmin, hmax, hlegal⟩
    rw [if_neg (by omega), if_neg (by omega)]
    exact hslots.2 hlegal

/-- The phase load keeps every slot's configuration and puts the inactive slots at phase 0. -/
theorem Block.phaseLoad_started {b : Block} (h : b.ConfigLegal) : b.phaseLoad.Started := by
  have hlen : b.phaseLoad.slots.length = b.slots.length := b.numOsc_phaseLoad
  have ⟨hosc, hmin, hmax, _⟩ := h
  refine Block.started_of_slots (b.numOsc_phaseLoad.symm ▸ hosc) hmin hmax
    (fun i hi hact => ?_) (fun i hi hact => ?_)
  · rw [b.phaseLoad_slot i (hlen ▸ hi)]
    exact h.slot (hlen ▸ hi) hact
  · rw [b.phaseLoad_slot i (hlen ▸ hi)]
    exact if_neg (Nat.not_lt.2 hact)

/-- A legal PINIT is not -P, so neither is a loaded phase. -/
theorem Block.phaseLoad_phase_ne_min {b : Block} (h : b.ConfigLegal) :
    ∀ sl ∈ b.phaseLoad.slots, sl.phase ≠ 0x80000000#32 := by
  intro sl hsl
  obtain ⟨i, hi, rfl⟩ := List.mem_iff_getElem.1 hsl
  have hi' : i < b.slots.length := by simpa using hi
  rw [b.phaseLoad_slot i hi']
  by_cases hact : i < b.numActive
  · obtain ⟨-, -, hpinit, -⟩ := h.slot hi' hact
    simpa only [hact, if_true] using hpinit
  · simp only [hact, if_false]
    decide

theorem Block.inv_of_start_accepted {b : Block} (hs : b.seq = .idle) (hv : b.validate = none)
    (hb : b.Inv) : { b.phaseLoad with frameCnt := 0#13, blkCnt := 0#32, seq := .fill }.Inv := by
  obtain ⟨⟨hmin, hmax, hwf, -⟩, hseq⟩ := b.inv_iff.1 hb
  obtain ⟨herr, -⟩ := (Block.seqInv_idle_iff hs).1 hseq
  have hlegal := b.validate_eq_none_iff.1 hv
  refine (Block.inv_iff _).2 ⟨⟨?_, ?_, hwf, Block.phaseLoad_phase_ne_min hlegal⟩, ?_⟩
  · exact b.numOsc_phaseLoad.symm ▸ hmin
  · exact b.numOsc_phaseLoad.symm ▸ hmax
  · exact (Block.seqInv_fill_iff rfl).2 ⟨herr, Block.phaseLoad_started hlegal, hlegal.2.1⟩

theorem Block.inv_of_start_rejected {b : Block} {c : ErrCode} {o : BitVec 6} (hs : b.seq = .idle)
    (hv : b.validate = some (c, o)) (hb : b.Inv) : (b.setCfgErr.raiseHalt c o 0#13).Inv := by
  obtain ⟨hkept, hseq⟩ := b.inv_iff.1 hb
  obtain ⟨⟨-, hsink, -⟩, hrest⟩ := (Block.seqInv_idle_iff hs).1 hseq
  exact (Block.inv_iff _).2 ⟨hkept, (Block.seqInv_halt_iff rfl).2 (.inl ⟨rfl, hsink, hrest, hv, rfl⟩)⟩

/-! ## FRAME_STEP -/

/-- A tick keeps every slot's configuration and leaves the inactive slots alone. -/
theorem Block.frameStep_started {b : Block} (h : b.Started) : b.frameStep.Started := by
  have hlen : b.frameStep.slots.length = b.slots.length := b.numOsc_frameStep
  obtain ⟨hlegal, hrest⟩ := h
  have ⟨hosc, hmin, hmax, _⟩ := hlegal
  refine Block.started_of_slots (b.numOsc_frameStep.symm ▸ hosc) hmin hmax
    (fun i hi hact => ?_) (fun i hi hact => ?_)
  · rw [b.numActive_frameStep] at hact
    rw [b.frameStep_slot i (hlen ▸ hi), if_pos hact]
    exact hlegal.slot (hlen ▸ hi) hact
  · rw [b.numActive_frameStep] at hact
    rw [b.frameStep_slot i (hlen ▸ hi), if_neg (Nat.not_lt.2 hact)]
    exact hrest _ ((b.mem_inactiveSlots _).2 ⟨i, hlen ▸ hi, hact, rfl⟩)

/-- A tick by a legal increment does not reach -P (41_phase_bank.md R163). -/
theorem Block.frameStep_phase_ne_min {b : Block} (h : b.ConfigLegal)
    (hne : ∀ sl ∈ b.slots, sl.phase ≠ 0x80000000#32) :
    ∀ sl ∈ b.frameStep.slots, sl.phase ≠ 0x80000000#32 := by
  intro sl hsl
  obtain ⟨i, hi, rfl⟩ := List.mem_iff_getElem.1 hsl
  have hi' : i < b.slots.length := by simpa using hi
  rw [b.frameStep_slot i hi']
  split
  next hact =>
    obtain ⟨hpinc, -⟩ := h.slot hi' hact
    exact Slot.tick_phase_ne_min _ (hne _ (List.getElem_mem hi')) hpinc
  next => exact hne _ (List.getElem_mem hi')

theorem Block.frameStep_wellKept {b : Block} (hlegal : b.ConfigLegal)
    (hk : b.frameCnt.toNat < Config.bufFrames) (h : b.WellKept) : b.frameStep.WellKept := by
  obtain ⟨hmin, hmax, hwf, hne⟩ := h
  refine ⟨?_, ?_, ?_, Block.frameStep_phase_ne_min hlegal hne⟩
  · rwa [b.numOsc_frameStep]
  · rwa [b.numOsc_frameStep]
  · exact b.wf_writeFrame _ _ hwf hk

/-- FRAMECNT counts up to LEN without wrapping, and reaching LEN is entering DRAIN (10_state.md R27). -/
theorem Block.frameStep_inv {b : Block} (hs : b.seq = .fill) (hk : b.frameCnt.toNat < Config.bufFrames)
    (hb : b.Inv) : b.frameStep.Inv := by
  obtain ⟨hkept, hseq⟩ := b.inv_iff.1 hb
  obtain ⟨herr, hstarted, hlt⟩ := (Block.seqInv_fill_iff hs).1 hseq
  have hstarted' := Block.frameStep_started hstarted
  refine (Block.inv_iff _).2 ⟨Block.frameStep_wellKept hstarted.1 hk hkept, ?_⟩
  by_cases hfull : b.frameCnt + 1#13 = b.len
  · exact (Block.seqInv_drain_iff (by simp [hfull])).2 ⟨herr, hstarted', hfull⟩
  · refine (Block.seqInv_fill_iff (by simp [hfull, hs])).2 ⟨herr, hstarted', ?_⟩
    rw [b.frameStep_frameCnt, b.frameStep_len]
    bv_omega

/-! ## The sink's answers -/

/-- A block of at least one frame is not full at FRAMECNT 0. -/
theorem Block.acceptBlock_inv {b : Block} (hs : b.seq = .drain) (hb : b.Inv) : b.acceptBlock.Inv := by
  obtain ⟨hkept, hseq⟩ := b.inv_iff.1 hb
  obtain ⟨herr, hstarted, -⟩ := (Block.seqInv_drain_iff hs).1 hseq
  have hlen : 1 ≤ b.len.toNat := hstarted.1.2.1
  exact (Block.inv_iff _).2 ⟨hkept, (Block.seqInv_fill_iff rfl).2 ⟨herr, hstarted, hlen⟩⟩

/-- The two ways the sink halts a run: code 7, or code 8 with a count other than LEN. -/
theorem Block.inv_of_sinkHalt {b : Block} {c : ErrCode} {n : BitVec 13} (hs : b.seq = .drain)
    (hc : (c = .sinkErr ∧ n = 0#13) ∨ (c = .sinkShort ∧ n ≠ b.len)) (hb : b.Inv) :
    (b.setSinkErr.raiseHalt c 0#6 n).Inv := by
  obtain ⟨hkept, hseq⟩ := b.inv_iff.1 hb
  obtain ⟨⟨hcfg, -, -⟩, hstarted, hfull⟩ := (Block.seqInv_drain_iff hs).1 hseq
  exact (Block.inv_iff _).2
    ⟨hkept, (Block.seqInv_halt_iff rfl).2 (.inr ⟨hcfg, rfl, hstarted, hfull, rfl, hc⟩)⟩

/-! ## Every step -/

theorem Block.Effect.inv {b b' : Block} (h : b.Effect b') (hb : b.Inv) : b'.Inv := by
  cases h with
  | same => exact hb
  | ignoredWrite => exact (b.inv_with_warnings b.cmdErr true).2 hb
  | configured hs _ hc => exact hc.inv hs hb
  | commandError => exact (b.inv_with_warnings true b.wign).2 hb
  | cleared => exact (b.inv_with_warnings false false).2 hb
  | reset => exact Block.reset_inv (b.inv_iff.1 hb).1
  | rejected _ _ hs hv => exact Block.inv_of_start_rejected hs hv hb
  | started hs hv => exact Block.inv_of_start_accepted hs hv hb
  | framed hs hk => exact Block.frameStep_inv hs hk hb
  | accepted hs => exact Block.acceptBlock_inv hs hb
  | sinkFailed hs => exact Block.inv_of_sinkHalt hs (.inl ⟨rfl, rfl⟩) hb
  | sinkShort _ hs hn => exact Block.inv_of_sinkHalt hs (.inr ⟨rfl, hn⟩) hb

/-- Settles O47: each effect a step can have keeps both parts of the invariant. -/
theorem stepKeepsTheInvariant : Obligations.StepKeepsTheInvariant := by
  intro s t hs h
  exact (step_eq_next h).1.inv hs

end Sys2Proof.Machine
end

section
/-! PROOFS. What causes each effect of a step. `Block.Effect` lists the effects; here each one stands with the
operation that has it, and a step with the agent that takes it, so that a rule "only X changes Y" is read off
the list. -/

namespace Sys2Proof.Machine

open Sys2Proof.Claims

/-! ## Commands and the write that carries them -/

/-- The command that a write to CMD carries; every other operation is itself (40_config_and_commands.md R127). -/
def commandOf : Instr → Instr
  | .wrCmd w => decodeCmd w
  | i => i

/-- Each command word is the encoding of the command it stands for (30_encoding.md R106). -/
theorem encode_decodeCmd (w : Word) : encode (decodeCmd w) = .cmd w := by
  unfold decodeCmd cmdSelect
  repeat' split
  all_goals
    subst_vars
    rfl

/-- An operation acts as `c` by being `c`, or by writing the word of `c` to CMD. -/
theorem eq_or_wrCmd_of_commandOf {i c : Instr} (h : commandOf i = c) :
    i = c ∨ ∃ w, i = .wrCmd w ∧ encode c = .cmd w := by
  unfold commandOf at h
  split at h
  next w => exact .inr ⟨w, rfl, h ▸ encode_decodeCmd w⟩
  next => exact .inl h

section NextCommand

variable {s : State} {i : Instr} (hn : nextInstr s = some i)
include hn

/-- When the next operation acts as a command, it is that command or the write of its word. -/
theorem nextInstr_of_commandOf {c : Instr} {w : Word} (h : commandOf i = c) (hc : encode c = .cmd w) :
    nextInstr s = some c ∨ nextInstr s = some (.wrCmd w) := by
  obtain rfl | ⟨w', rfl, hw'⟩ := eq_or_wrCmd_of_commandOf h
  · exact .inl hn
  · obtain rfl : w' = w := Request.cmd.inj (hw'.symm.trans hc)
    exact .inr hn

/-- A write to CMD cannot carry an operation of another port. -/
theorem nextInstr_of_commandOf_not_cmd {c : Instr} (h : commandOf i = c) (hc : ∀ w, encode c ≠ .cmd w) :
    nextInstr s = some c := by
  obtain rfl | ⟨w, -, hw⟩ := eq_or_wrCmd_of_commandOf h
  · exact hn
  · exact absurd hw (hc w)

theorem starts_of_commandOf (h : commandOf i = .start) : Starts s := nextInstr_of_commandOf hn h rfl

theorem clears_of_commandOf (h : commandOf i = .clear) : Clears s := nextInstr_of_commandOf hn h rfl

theorem resets_of_commandOf (h : commandOf i = .softreset) : Resets s :=
  .inr (nextInstr_of_commandOf hn h rfl)

theorem sinkAnswers_of_commandOf {n : BitVec 13} (h : commandOf i = .sinkDone n ∨ commandOf i = .sinkError n) :
    SinkAnswers s :=
  ⟨n, h.imp (nextInstr_of_commandOf_not_cmd hn · nofun) (nextInstr_of_commandOf_not_cmd hn · nofun)⟩

end NextCommand

/-! ## The effects of an operation -/

/-- Every effect an operation can have on the block, with the operation (`c`, a write to CMD standing for the
command it carries) and the guard. -/
inductive Block.Caused (b : Block) : Instr → Block → Prop where
  | same {c : Instr} : b.Caused c b
  | ignoredWrite {c : Instr} (h : b.seq ≠ .idle) : b.Caused c b.setWign
  | configured {c : Instr} (h : b.seq = .idle) (b' : Block) (hb : b.Reconfigured b') : b.Caused c b'
  | commandError {c : Instr} : b.Caused c b.setCmdErr
  | cleared : b.Caused .clear b.clearWarnings
  | reset : b.Caused .softreset b.reset
  | rejected (e : ErrCode) (o : BitVec 6) (h : b.seq = .idle) (hv : b.validate = some (e, o)) :
      b.Caused .start (b.setCfgErr.raiseHalt e o 0#13)
  | started (h : b.seq = .idle) (hv : b.validate = none) :
      b.Caused .start { b.phaseLoad with frameCnt := 0#13, blkCnt := 0#32, seq := .fill }
  | accepted (h : b.seq = .drain) : b.Caused (.sinkDone b.len) b.acceptBlock
  | sinkFailed (n : BitVec 13) (h : b.seq = .drain) :
      b.Caused (.sinkError n) (b.setSinkErr.raiseHalt .sinkErr 0#6 0#13)
  | sinkShort (n : BitVec 13) (h : b.seq = .drain) (hn : n ≠ b.len) :
      b.Caused (.sinkDone n) (b.setSinkErr.raiseHalt .sinkShort 0#6 n)

theorem State.configWrite_caused (s : State) (f : Block → Block) (c : Instr)
    (hf : s.block.Reconfigured (f s.block)) :
    ∃ b r, s.configWrite f = .next { s with block := b, resp := r } ∧ s.block.Caused c b := by
  by_cases h : s.block.seq = .idle
  · exact ⟨_, _, s.configWrite_idle f h, .configured h _ hf⟩
  · exact ⟨_, _, s.configWrite_ignored f h, .ignoredWrite h⟩

theorem State.readSlot_caused (s : State) (i : BitVec 6) (f : Slot → Word) (c : Instr) :
    ∃ b r, s.readSlot i f = .next { s with block := b, resp := r } ∧ s.block.Caused c b := by
  cases h : s.block.slot? i with
  | some sl => exact ⟨_, _, s.readSlot_some i f sl h, .same⟩
  | none => exact ⟨_, _, s.readSlot_none i f h, .same⟩

theorem State.writeSlot_caused (s : State) (i : BitVec 6) (f : Slot → Slot) (c : Instr)
    (hf : ∀ sl, (f sl).phase = sl.phase) :
    ∃ b r, s.writeSlot i f = .next { s with block := b, resp := r } ∧ s.block.Caused c b := by
  cases h : s.block.slot? i with
  | some sl =>
    rw [s.writeSlot_some i f sl h]
    exact s.configWrite_caused _ c (s.block.reconfigured_setSlot i sl _ h (hf sl))
  | none => exact ⟨_, _, s.writeSlot_none i f h, .same⟩

theorem execWrPhase_caused (i : BitVec 6) (w : Word) (s : State) (c : Instr) :
    ∃ b r, execWrPhase i w s = .next { s with block := b, resp := r } ∧ s.block.Caused c b := by
  unfold execWrPhase
  split <;> exact ⟨_, _, rfl, .same⟩

theorem Block.start_caused (b : Block) : b.Caused .start b.start := by
  by_cases hs : b.seq = .idle
  · cases hv : b.validate with
    | none => exact b.start_accepted hs hv ▸ .started hs hv
    | some p => exact b.start_rejected p.1 p.2 hs hv ▸ .rejected p.1 p.2 hs hv
  · exact b.start_outside_idle hs ▸ .commandError

theorem execWrCmd_caused (w : Word) (s : State) :
    ∃ b r, execWrCmd w s = .next { s with block := b, resp := r } ∧ s.block.Caused (decodeCmd w) b := by
  unfold execWrCmd decodeCmd cmdSelect
  repeat' split
  · exact ⟨_, _, rfl, .same⟩
  · exact ⟨_, _, rfl, s.block.start_caused⟩
  · exact ⟨_, _, rfl, .reset⟩
  · exact ⟨_, _, rfl, .cleared⟩
  · exact ⟨_, _, rfl, .commandError⟩

theorem execSinkDone_caused (n : BitVec 13) (s : State) :
    ∃ b r, execSinkDone n s = .next { s with block := b, resp := r } ∧ s.block.Caused (.sinkDone n) b := by
  refine ⟨_, _, rfl, ?_⟩
  split
  next h =>
    dsimp only
    split
    next hn => exact hn ▸ .accepted h
    next hn => exact .sinkShort n h hn
  next => exact .same

theorem execSinkError_caused (n : BitVec 13) (s : State) :
    ∃ b r, execSinkError n s = .next { s with block := b, resp := r } ∧ s.block.Caused (.sinkError n) b := by
  refine ⟨_, _, rfl, ?_⟩
  split
  next h => exact .sinkFailed n h
  next => exact .same

/-- `exec` always answers a next state, keeps the agenda, and has one of the effects of its operation. -/
theorem exec_caused (i : Instr) (s : State) :
    ∃ b r, exec i s = .next { s with block := b, resp := r } ∧ s.block.Caused (commandOf i) b := by
  cases i with
  | wrCmd w => exact execWrCmd_caused w s
  | wrChcfg w =>
    exact s.configWrite_caused (fun b => { b with lkind := wdataLkind w, rkind := wdataRkind w }) _
      ⟨_, _, _, _, _, s.block.slots, rfl, rfl⟩
  | wrNosc w =>
    exact s.configWrite_caused (fun b => { b with nleft := wdataNleft w, nright := wdataNright w }) _
      ⟨_, _, _, _, _, s.block.slots, rfl, rfl⟩
  | wrBlklen w =>
    exact s.configWrite_caused (fun b => { b with len := wdataLen w }) _
      ⟨_, _, _, _, _, s.block.slots, rfl, rfl⟩
  | wrPinc i w => exact s.writeSlot_caused i _ _ fun _ => rfl
  | wrPinit i w => exact s.writeSlot_caused i _ _ fun _ => rfl
  | wrDuty i w => exact s.writeSlot_caused i _ _ fun _ => rfl
  | wrAmp i w => exact s.writeSlot_caused i _ _ fun _ => rfl
  | wrPhase i w => exact execWrPhase_caused i w s _
  | rdPinc i => exact s.readSlot_caused i _ _
  | rdPinit i => exact s.readSlot_caused i _ _
  | rdDuty i => exact s.readSlot_caused i _ _
  | rdAmp i => exact s.readSlot_caused i _ _
  | rdPhase i => exact s.readSlot_caused i _ _
  | start => exact ⟨_, _, rfl, s.block.start_caused⟩
  | softreset => exact ⟨_, _, rfl, .reset⟩
  | clear => exact ⟨_, _, rfl, .cleared⟩
  | cmdRsvd w => exact ⟨_, _, rfl, .commandError⟩
  | sinkDone n => exact execSinkDone_caused n s
  | sinkError n => exact execSinkError_caused n s
  | _ => exact ⟨_, _, rfl, .same⟩

/-! ## The agent of a step -/

/-- Every effect of a step on the block, with the agent whose step it is. -/
inductive State.Caused (s : State) : Block → Prop where
  | waited (h : SeqActs s) (hf : s.block.seq ≠ .fill) : s.Caused s.block
  | framed (h : SeqActs s) (hf : s.block.seq = .fill) : s.Caused s.block.frameStep
  | hardReset (h : s.agenda.head? = some .rst) : s.Caused s.block.reset
  | ran (i : Instr) (h : nextInstr s = some i) (b : Block) (hb : s.block.Caused (commandOf i) b) : s.Caused b

/-- A turn of SEQ that answers is a FRAME_STEP in FILL, and a wait elsewhere. -/
theorem State.seqTurn_block {s t : State} (h : s.seqTurn = .next t) :
    t.block = if s.block.seq = .fill then s.block.frameStep else s.block := by
  by_cases hf : s.block.seq = .fill
  · by_cases hk : s.block.frameCnt.toNat < Config.bufFrames
    · simp only [State.seqTurn, hf, State.frameStep, hk, if_true, State.finish_eq] at h
      obtain rfl := Host.Outcome.next.inj h
      simp only [hf, if_true]
    · simp only [State.seqTurn, hf, State.frameStep, hk, if_true, if_false] at h
      cases h
  · simp only [State.seqTurn, hf, if_false, State.finish_eq] at h
    obtain rfl := Host.Outcome.next.inj h
    simp only [hf, if_false]

theorem State.caused_of_seqTurn {s t : State} {rest : List Event} (hs : SeqActs s)
    (h : State.seqTurn { s with agenda := rest } = .next t) : s.Caused t.block := by
  rw [State.seqTurn_block h]
  by_cases hf : s.block.seq = .fill
  · simpa only [hf, if_true] using .framed hs hf
  · simpa only [hf, if_false] using .waited hs hf

/-- The inversion of a step that answers: whose step it was and what it did to the block. -/
theorem step_caused {s t : State} (h : step s = .next t) : s.Caused t.block := by
  obtain ⟨b0, r0, agenda⟩ := s
  cases agenda with
  | nil => exact State.caused_of_seqTurn (.inl rfl) h
  | cons e rest =>
    cases e with
    | seq => exact State.caused_of_seqTurn (.inr rfl) h
    | rst =>
      obtain rfl := Host.Outcome.next.inj h
      exact .hardReset rfl
    | request r =>
      obtain ⟨b, r', hnext, hb⟩ := exec_caused (decode b0.numOsc r) ⟨b0, r0, rest⟩
      obtain rfl : _ = t := Host.Outcome.next.inj (hnext.symm.trans h)
      exact .ran _ rfl b hb

/-- A turn of SEQ is no reset. -/
theorem not_resets_of_seqActs {s : State} (h : SeqActs s) : ¬ Resets s := by
  obtain ⟨b, r, agenda⟩ := s
  cases agenda with
  | nil => rintro (h' | h' | h') <;> cases h'
  | cons e rest =>
    obtain h | h := h
    · cases h
    · obtain rfl : e = .seq := by simpa using h
      rintro (h' | h' | h') <;> cases h'

end Sys2Proof.Machine
end

section
/-! PROOFS. 10_state.md, what changes what: STATE, the flags, ERRINFO and BUF, each read off the list of
effects with their causes. -/

namespace Sys2Proof.Machine

open Sys2Proof.Claims

/-! ## STATE (10_state.md R23) -/

/-- The operations that change STATE, and from where to where. -/
theorem Block.Caused.seq_transition {b b' : Block} {c : Instr} (h : b.Caused c b')
    (hne : b'.seq ≠ b.seq) :
    (b.seq = .idle ∧ (b'.seq = .fill ∨ b'.seq = .halt) ∧ c = .start) ∨
      (b.seq = .drain ∧ (b'.seq = .fill ∨ b'.seq = .halt) ∧ ∃ n, c = .sinkDone n ∨ c = .sinkError n) ∨
      (b'.seq = .idle ∧ c = .softreset) := by
  cases h with
  | configured _ _ hb =>
    obtain ⟨_, _, _, _, _, _, rfl, -⟩ := hb
    exact absurd rfl hne
  | reset => exact .inr (.inr ⟨rfl, rfl⟩)
  | rejected _ _ hs => exact .inl ⟨hs, .inr rfl, rfl⟩
  | started hs => exact .inl ⟨hs, .inl rfl, rfl⟩
  | accepted hs => exact .inr (.inl ⟨hs, .inl rfl, _, .inl rfl⟩)
  | sinkFailed n hs => exact .inr (.inl ⟨hs, .inr rfl, n, .inr rfl⟩)
  | sinkShort n hs => exact .inr (.inl ⟨hs, .inr rfl, n, .inl rfl⟩)
  | _ => exact absurd rfl hne

/-- FRAME_STEP changes STATE only by filling the last frame. -/
theorem Block.frameStep_seq_ne {b : Block} (hne : b.frameStep.seq ≠ b.seq) :
    b.frameStep.seq = .drain ∧ b.frameStep.frameCnt = b.len := by
  rw [b.frameStep_seq] at hne ⊢
  by_cases hfull : b.frameCnt + 1#13 = b.len
  · exact ⟨if_pos hfull, hfull⟩
  · exact absurd (if_neg hfull) hne

/-- Settles O52: each agent's effects that change STATE are among the listed transitions. -/
theorem onlyListedStateTransitions : Obligations.OnlyListedStateTransitions := by
  intro s t h hne
  have hc := step_caused h
  generalize t.block = b' at hc hne ⊢
  cases hc with
  | waited => exact absurd rfl hne
  | framed hs hf =>
    obtain ⟨hdrain, hfull⟩ := Block.frameStep_seq_ne hne
    exact .inr (.inl ⟨hf, hdrain, hs, hfull⟩)
  | hardReset hr => exact .inr (.inr (.inr ⟨rfl, .inl hr⟩))
  | ran i hn _ hb =>
    obtain ⟨hs, hto, hi⟩ | ⟨hs, hto, n, hi⟩ | ⟨hto, hi⟩ := hb.seq_transition hne
    · exact .inl ⟨hs, hto, starts_of_commandOf hn hi⟩
    · exact .inr (.inr (.inl ⟨hs, hto, sinkAnswers_of_commandOf hn hi⟩))
    · exact .inr (.inr (.inr ⟨hto, resets_of_commandOf hn hi⟩))

/-! ## The sticky flags (10_state.md R22) -/

/-- The flags that are set in `b` are set in `b'`; CMD_ERR and WIGN unless `cleared`. -/
def Block.KeepsFlags (b b' : Block) (cleared : Prop) : Prop :=
  (b.cfgErr = true → b'.cfgErr = true) ∧ (b.sinkErr = true → b'.sinkErr = true) ∧
    (¬ cleared → b.cmdErr = true → b'.cmdErr = true) ∧ (¬ cleared → b.wign = true → b'.wign = true)

/-- No operation but SOFTRESET lowers a flag, save CLEAR the two warnings. -/
theorem Block.Caused.keepsFlags {b b' : Block} {c : Instr} (h : b.Caused c b') (hr : c ≠ .softreset) :
    b.KeepsFlags b' (c = .clear) := by
  cases h with
  | ignoredWrite => exact ⟨id, id, fun _ => id, fun _ _ => rfl⟩
  | configured _ _ hb =>
    obtain ⟨_, _, _, _, _, _, rfl, -⟩ := hb
    exact ⟨id, id, fun _ => id, fun _ => id⟩
  | commandError => exact ⟨id, id, fun _ _ => rfl, fun _ => id⟩
  | cleared => exact ⟨id, id, fun hne => absurd rfl hne, fun hne => absurd rfl hne⟩
  | reset => exact absurd rfl hr
  | rejected => exact ⟨fun _ => rfl, id, fun _ => id, fun _ => id⟩
  | sinkFailed => exact ⟨id, fun _ => rfl, fun _ => id, fun _ => id⟩
  | sinkShort => exact ⟨id, fun _ => rfl, fun _ => id, fun _ => id⟩
  | _ => exact ⟨id, id, fun _ => id, fun _ => id⟩

theorem State.Caused.keepsFlags {s : State} {b' : Block} (h : s.Caused b') (hr : ¬ Resets s) :
    s.block.KeepsFlags b' (Clears s) := by
  cases h with
  | waited => exact ⟨id, id, fun _ => id, fun _ => id⟩
  | framed => exact ⟨id, id, fun _ => id, fun _ => id⟩
  | hardReset h => exact absurd (.inl h) hr
  | ran i hn _ hb =>
    obtain ⟨hcfg, hsink, hcmd, hwign⟩ := hb.keepsFlags fun hi => hr (resets_of_commandOf hn hi)
    exact ⟨hcfg, hsink, fun hc => hcmd fun hi => hc (clears_of_commandOf hn hi),
      fun hc => hwign fun hi => hc (clears_of_commandOf hn hi)⟩

/-- Settles O55, from what each agent's effects do to the flags. -/
theorem statusFlagsAreSticky : Obligations.StatusFlagsAreSticky := by
  intro s t h hr
  exact (step_caused h).keepsFlags hr

/-! ## ERRINFO (10_state.md R29) -/

/-- An operation other than SOFTRESET that changes ERRINFO enters HALT. -/
theorem Block.Caused.errInfo_change {b b' : Block} {c : Instr} (h : b.Caused c b') (hr : c ≠ .softreset)
    (hne : b'.errInfo ≠ b.errInfo) : b.seq ≠ .halt ∧ b'.seq = .halt := by
  cases h with
  | configured _ _ hb =>
    obtain ⟨_, _, _, _, _, _, rfl, -⟩ := hb
    exact absurd rfl hne
  | reset => exact absurd rfl hr
  | rejected _ _ hs => exact ⟨by simp [hs], rfl⟩
  | sinkFailed _ hs => exact ⟨by simp [hs], rfl⟩
  | sinkShort _ hs => exact ⟨by simp [hs], rfl⟩
  | _ => exact absurd rfl hne

theorem State.Caused.errInfo_change {s : State} {b' : Block} (h : s.Caused b') (hr : ¬ Resets s)
    (hne : b'.errInfo ≠ s.block.errInfo) : s.block.seq ≠ .halt ∧ b'.seq = .halt := by
  cases h with
  | waited => exact absurd rfl hne
  | framed => exact absurd rfl hne
  | hardReset h => exact absurd (.inl h) hr
  | ran i hn _ hb => exact hb.errInfo_change (fun hi => hr (resets_of_commandOf hn hi)) hne

/-- Settles O56: the effects that write ERRINFO are the rejected START and the two sink failures. -/
theorem errinfoIsWrittenOnlyOnHaltEntry : Obligations.ErrinfoIsWrittenOnlyOnHaltEntry := by
  intro s t h hr hne
  exact (step_caused h).errInfo_change hr hne

/-! ## BUF (10_state.md R38, R39) -/

/-- No operation stores to BUF, SOFTRESET included. -/
theorem Block.Caused.buf_eq {b b' : Block} {c : Instr} (h : b.Caused c b') : b'.buf = b.buf := by
  cases h with
  | configured _ _ hb =>
    obtain ⟨_, _, _, _, _, _, rfl, -⟩ := hb
    rfl
  | _ => rfl

/-- Settles O57: an operation has one of its listed effects, and none of them is on BUF. -/
theorem noOperationStoresToMemory : Obligations.NoOperationStoresToMemory := by
  intro i s
  obtain ⟨b, r, hnext, hb⟩ := exec_caused i s
  exact ⟨_, hnext, rfl, fun a => congrArg (Memory.readByte · a) hb.buf_eq, hb.buf_eq⟩

/-- FRAME_STEP leaves every byte outside its frame word. -/
theorem Block.frameStep_readByte_ne {b : Block} {a : Nat}
    (hne : b.frameStep.buf.readByte a ≠ b.buf.readByte a) :
    bufAddr b.frameCnt.toNat ≤ a ∧ a < bufAddr b.frameCnt.toNat + 4 := by
  rw [b.frameStep_buf, Memory.readByte_writeWord] at hne
  by_contra hout
  exact hne (if_neg hout)

/-- Settles O58: of all agents' effects only FRAME_STEP's is on BUF. -/
theorem bufIsWrittenOnlyByFrameStep : Obligations.BufIsWrittenOnlyByFrameStep := by
  intro s t a h hne
  have hc := step_caused h
  generalize t.block = b' at hc hne
  cases hc with
  | waited => exact absurd rfl hne
  | framed hs hf =>
    obtain ⟨hlo, hhi⟩ := Block.frameStep_readByte_ne hne
    exact ⟨hf, hs, not_resets_of_seqActs hs, hlo, hhi⟩
  | hardReset => exact absurd rfl hne
  | ran _ _ _ hb => exact absurd (congrArg (Memory.readByte · a) hb.buf_eq) hne

end Sys2Proof.Machine
end

section
/-! PROOFS. 10_state.md, what the ports answer: the reads of the reset state, the absent slot, and the outputs
of the sink port. -/

namespace Sys2Proof.Machine

/-! ## The reset state (10_state.md R41) -/

theorem State.powerOn_slot? {n : Nat} (m : Memory) {i : BitVec 6} (hi : i.toNat < n) :
    (State.powerOn n m).block.slot? i = some Slot.atReset := by
  simp [Block.slot?, State.powerOn, hi]

/-- Settles O11: the global registers by their images, the slot fields by `State.readSlot_some`. -/
theorem resetStateReadsItsResetValues : Obligations.ResetStateReadsItsResetValues := by
  refine ⟨rfl, rfl, rfl, rfl, rfl, rfl, rfl, rfl, fun i hi => ?_, fun _ => rfl⟩
  have hread : ∀ f : Slot → Word, State.reset.readSlot i f =
      .next { State.reset with resp := .okayRead (f Slot.atReset) } :=
    fun f => State.readSlot_some _ i f _ (State.powerOn_slot? [] hi)
  exact ⟨hread _, hread _, hread _, hread _, hread _⟩

/-! ## The absent slot (10_state.md R37) -/

theorem execWrPhase_none (s : State) (i : BitVec 6) (w : Word) (h : s.block.slot? i = none) :
    execWrPhase i w s = .next { s with resp := .errorWrite } := by
  simp [execWrPhase, h, State.busError, State.finish_eq]

/-- Settles O19: BUS_ERR by its definition, the slot operations by what they do without their slot. -/
theorem absentSlotIsABusError : Obligations.AbsentSlotIsABusError := by
  intro s
  refine ⟨fun _ => ⟨rfl, rfl⟩, fun i hi => ?_⟩
  have hnone : s.block.slot? i = none := (s.block.slot?_eq_none_iff i).2 hi
  have hread := fun f => s.readSlot_none i f hnone
  have hwrite := fun f => s.writeSlot_none i f hnone
  simp only [List.forall_mem_cons, List.not_mem_nil, false_implies, implies_true, and_true]
  exact ⟨⟨hread _, hread _, hread _, hread _, hread _⟩,
    fun w => ⟨hwrite _, hwrite _, hwrite _, hwrite _, execWrPhase_none s i w hnone⟩⟩

/-! ## The sink port (10_state.md R40) -/

theorem Block.blkValid_iff (b : Block) : b.blkValid = true ↔ b.seq = .drain := decide_eq_true_iff

/-- Settles O31; RD_BUF and rd_data are the same `Block.readFrame`. -/
theorem sinkPortOutputs : Obligations.SinkPortOutputs := by
  intro s
  exact ⟨s.block.blkValid_iff, rfl, fun _ => rfl⟩

end Sys2Proof.Machine
end

section
/-! PROOFS. The decoder in numbers: what a field of a request is, as a number, and what `decodeAddr` answers at an
address given by its number, so that the address map of 20_memory.md R71 is met with arithmetic. -/

namespace Sys2Proof.Machine

open Sys2Proof.Claims

/-! ## Bit fields -/

theorem extractLsb'_toNat_eq_div {m : Nat} (x : BitVec m) (start len : Nat) :
    (x.extractLsb' start len).toNat = x.toNat / 2 ^ start % 2 ^ len := by
  rw [BitVec.extractLsb'_toNat, Nat.shiftRight_eq_div_pow]

theorem extractLsb'_eq_iff {m len : Nat} (x : BitVec m) (start : Nat) (c : BitVec len) :
    x.extractLsb' start len = c ↔ x.toNat / 2 ^ start % 2 ^ len = c.toNat := by
  rw [← BitVec.toNat_inj, extractLsb'_toNat_eq_div]

/-! ## WE and ADDR of a request (30_encoding.md R101) -/

@[simp] theorem reqWe_busReq (we : Bool) (addr : BitVec 16) : reqWe (busReq we addr.toNat) = we := by
  have h := addr.isLt
  rw [reqWe, BitVec.getLsbD, busReq, BitVec.toNat_ofNat, Nat.testBit_eq_decide_div_mod_eq]
  cases we
  · simp only [Bool.false_eq_true, if_false, decide_eq_false_iff_not]
    omega
  · simp only [if_true, decide_eq_true_eq]
    omega

@[simp] theorem reqAddr_busReq (we : Bool) (addr : BitVec 16) :
    reqAddr (busReq we addr.toNat) = addr := by
  have h := addr.isLt
  rw [reqAddr, extractLsb'_eq_iff, busReq, BitVec.toNat_ofNat]
  split <;> omega

@[simp] theorem reqWe_slotReq (we : BitVec 1) (i : BitVec 6) (offset : BitVec 5) :
    reqWe (slotReq we i offset) = we.getLsbD 0 := by
  simp only [reqWe, slotReq, BitVec.getLsbD_append]
  simp

theorem reqAddr_slotReq_toNat (we : BitVec 1) (i : BitVec 6) (offset : BitVec 5) :
    (reqAddr (slotReq we i offset)).toNat = 0x800 + 0x20 * i.toNat + offset.toNat := by
  have hi := i.isLt
  have ho := offset.isLt
  have hreq : (slotReq we i offset).toNat =
      ((we.toNat * 2 ^ 5 + 1) * 2 ^ 6 + i.toNat) * 2 ^ 5 + offset.toNat := by
    refine (toNat_concat (we ++ 1#5 ++ i) offset).trans ?_
    rw [toNat_concat, toNat_concat]
    rfl
  rw [reqAddr, extractLsb'_toNat_eq_div, hreq]
  omega

@[simp] theorem reqWe_bufReq (we : BitVec 1) (k : BitVec 12) : reqWe (bufReq we k) = we.getLsbD 0 := by
  simp only [reqWe, bufReq, BitVec.getLsbD_append]
  simp

theorem reqAddr_bufReq_toNat (we : BitVec 1) (k : BitVec 12) :
    (reqAddr (bufReq we k)).toNat = 0x4000 + 4 * k.toNat := by
  have hk := k.isLt
  have hreq : (bufReq we k).toNat = ((we.toNat * 2 ^ 2 + 1) * 2 ^ 12 + k.toNat) * 2 ^ 2 + 0 := by
    refine (toNat_concat (we ++ 1#2 ++ k) 0#2).trans ?_
    rw [toNat_concat, toNat_concat]
    rfl
  rw [reqAddr, extractLsb'_toNat_eq_div, hreq]
  omega

/-! ## The rows that match (30_encoding.md R104) -/

theorem decodeAddr_frame (n : Nat) (we : Bool) {addr : BitVec 16} (w : Word) {k : BitVec 12}
    (h : addr.toNat = 0x4000 + 4 * k.toNat) :
    decodeAddr n we addr w = some (if we then .wrBuf k w else .rdBuf k) := by
  have hk := k.isLt
  have haligned : addr.extractLsb' 0 2 = 0#2 := by
    rw [extractLsb'_eq_iff, BitVec.toNat_ofNat]
    omega
  have hbuf : addr.extractLsb' 14 2 = 1#2 := by
    rw [extractLsb'_eq_iff, BitVec.toNat_ofNat]
    omega
  have hframe : addrFrame addr = k := by
    rw [addrFrame, extractLsb'_eq_iff]
    omega
  simp [decodeAddr, haligned, hbuf, hframe]

theorem decodeAddr_slot {n : Nat} (we : Bool) {addr : BitVec 16} (w : Word) {i : BitVec 6} {field : Nat}
    (hi : i.toNat < n) (hf : field < 8) (h : addr.toNat = 0x800 + 0x20 * i.toNat + 4 * field) :
    decodeAddr n we addr w = decodeSlot we i field w := by
  have hi6 := i.isLt
  have haligned : addr.extractLsb' 0 2 = 0#2 := by
    rw [extractLsb'_eq_iff, BitVec.toNat_ofNat]
    omega
  have hbuf : addr.extractLsb' 14 2 ≠ 1#2 := by
    rw [ne_eq, extractLsb'_eq_iff, BitVec.toNat_ofNat]
    omega
  have hslots : addr.extractLsb' 11 5 = 1#5 := by
    rw [extractLsb'_eq_iff, BitVec.toNat_ofNat]
    omega
  have hslot : addrSlot addr = i := by
    rw [addrSlot, extractLsb'_eq_iff]
    omega
  have hfield : (addr.extractLsb' 2 3).toNat = field := by
    rw [extractLsb'_toNat_eq_div]
    omega
  simp [decodeAddr, haligned, hbuf, hslots, hslot, hi, hfield]

/-- The rows of a slot that exists, by the byte offset of the field. -/
theorem decode_slotReq {n : Nat} (we : BitVec 1) {i : BitVec 6} {offset : BitVec 5} (w : Word)
    (hi : i.toNat < n) (ho : offset.toNat % 4 = 0) :
    decode n (.bus (slotReq we i offset) w) =
      (decodeSlot (we.getLsbD 0) i (offset.toNat / 4) w).getD
        (.busErr (we.getLsbD 0) (reqAddr (slotReq we i offset))) := by
  have hlt := offset.isLt
  have haddr : (reqAddr (slotReq we i offset)).toNat =
      0x800 + 0x20 * i.toNat + 4 * (offset.toNat / 4) := by
    rw [reqAddr_slotReq_toNat]
    omega
  rw [decode, decodeBus, reqWe_slotReq, decodeAddr_slot _ w hi (by omega) haddr]

theorem decode_bufReq (n : Nat) (we : BitVec 1) (k : BitVec 12) (w : Word) :
    decode n (.bus (bufReq we k) w) = if we.getLsbD 0 then .wrBuf k w else .rdBuf k := by
  rw [decode, decodeBus, reqWe_bufReq, decodeAddr_frame n _ w (reqAddr_bufReq_toNat we k),
    Option.getD_some]

/-! ## Where no row matches -/

theorem decodeSlot_eq_none_iff (we : Bool) (i : BitVec 6) (field : Nat) (w : Word) :
    decodeSlot we i field w = none ↔ 5 ≤ field :=
  match field with
  | 0 | 1 | 2 | 3 | 4 => by simp [decodeSlot]
  | _ + 5 => by simp [decodeSlot]

theorem decodeGlobal_eq_none_iff (we : Bool) (gidx : Nat) (w : Word) :
    decodeGlobal we gidx w = none ↔ 9 ≤ gidx :=
  match gidx with
  | 0 | 1 | 2 | 3 | 4 | 5 | 6 | 7 | 8 => by simp [decodeGlobal]
  | _ + 9 => by simp [decodeGlobal]

theorem mapped_eq_false_iff (n a : Nat) :
    mapped n a = false ↔ a % 4 = 0 → ¬ a < 0x24 ∧
      ¬ (0x800 ≤ a ∧ a < 0x800 + 0x20 * n ∧ a % 0x20 < 0x14) ∧ ¬ (0x4000 ≤ a ∧ a < 0x8000) := by
  simp [mapped, and_assoc]

/-- The rows of R104 and the map of R71 leave out the same addresses. -/
theorem decodeAddr_eq_none_iff {n : Nat} (hn : n ≤ 64) (we : Bool) (addr : BitVec 16) (w : Word) :
    decodeAddr n we addr w = none ↔ mapped n addr.toNat = false := by
  have ha := addr.isLt
  rw [mapped_eq_false_iff]
  simp only [decodeAddr, ne_eq, extractLsb'_eq_iff, addrSlot, extractLsb'_toNat_eq_div,
    BitVec.toNat_ofNat]
  split_ifs with hmisaligned hbuf hslots hslot hglobal
  · simp only [false_iff]; omega
  · rw [decodeSlot_eq_none_iff]; omega
  · simp only [true_iff]; omega
  · rw [decodeGlobal_eq_none_iff]; omega
  · simp only [true_iff]; omega
  · simp only [true_iff]; omega

/-! ## BUS_ERR is no row of the table (40_config_and_commands.md R139) -/

theorem decodeSlot_ne_busErr (we : Bool) (i : BitVec 6) (field : Nat) (w : Word) (we' : Bool)
    (addr' : BitVec 16) : decodeSlot we i field w ≠ some (.busErr we' addr') := by
  unfold decodeSlot
  split <;> cases we <;> simp

theorem decodeGlobal_ne_busErr (we : Bool) (gidx : Nat) (w : Word) (we' : Bool) (addr' : BitVec 16) :
    decodeGlobal we gidx w ≠ some (.busErr we' addr') := by
  unfold decodeGlobal
  split <;> cases we <;> simp

theorem decodeAddr_ne_busErr (n : Nat) (we : Bool) (addr : BitVec 16) (w : Word) (we' : Bool)
    (addr' : BitVec 16) : decodeAddr n we addr w ≠ some (.busErr we' addr') := by
  unfold decodeAddr
  split_ifs
  · simp
  · simp
  · simp
  · exact decodeSlot_ne_busErr _ _ _ _ _ _
  · simp
  · exact decodeGlobal_ne_busErr _ _ _ _ _
  · simp

theorem decodeBus_busReq_eq_busErr_iff {n : Nat} (hn : n ≤ 64) (we : Bool) (addr : BitVec 16) (w : Word) :
    decodeBus n (busReq we addr.toNat) w = .busErr we addr ↔ mapped n addr.toNat = false := by
  rw [← decodeAddr_eq_none_iff hn we addr w, decodeBus, reqWe_busReq, reqAddr_busReq]
  cases h : decodeAddr n we addr w with
  | none => simp
  | some i =>
    have hi : i ≠ .busErr we addr := fun hi => decodeAddr_ne_busErr n we addr w we addr (hi ▸ h)
    simp [hi]

/-- Off the map: the misaligned addresses of R74 and the unmapped ranges of R71. -/
theorem mapped_eq_false_iff_ranges {n a : Nat} (hn : n ≤ 64) :
    mapped n a = false ↔
      a % 4 ≠ 0 ∨ (0x24 ≤ a ∧ a < 0x800) ∨
      (0x800 ≤ a ∧ a < 0x800 + 0x20 * n ∧ 0x14 ≤ a % 0x20) ∨
      (0x800 + 0x20 * n ≤ a ∧ a < 0x1000) ∨ (0x1000 ≤ a ∧ a < 0x4000) ∨ 0x8000 ≤ a := by
  rw [mapped_eq_false_iff]
  omega

end Sys2Proof.Machine
end

section
/-! PROOFS. 20_memory.md, the step and the accesses that change nothing: BUS_ERR, writes to read-only locations,
and the configuration outside IDLE. -/

namespace Sys2Proof.Machine

open Sys2Proof.Claims

/-! ## One step, by the head of the agenda (R80, R81) -/

theorem step_of_request {s : State} {r : Request} {rest : List Event} (h : s.agenda = .request r :: rest) :
    step s = exec (decode s.block.numOsc r) { s with agenda := rest } := by
  simp [step, h]

theorem step_of_rst {s : State} {rest : List Event} (h : s.agenda = .rst :: rest) :
    step s = State.hardReset { s with agenda := rest } := by
  simp [step, h]

theorem step_of_seqActs {s : State} (h : SeqActs s) :
    step s = State.seqTurn { s with agenda := s.agenda.tail } := by
  obtain ⟨b, r, agenda⟩ := s
  cases agenda with
  | nil => rfl
  | cons e rest =>
    obtain rfl : e = .seq := by simpa [SeqActs] using h
    rfl

theorem nextInstr_of_request {s : State} {r : Request} {rest : List Event}
    (h : s.agenda = .request r :: rest) : nextInstr s = some (decode s.block.numOsc r) := by
  simp [nextInstr, h]

/-- Settles O8: the three kinds of head an agenda can have. -/
theorem stepRunsTheDecodedRequest : Obligations.StepRunsTheDecodedRequest := by
  intro s
  exact ⟨fun _ _ => step_of_request, fun _ => step_of_rst, step_of_seqActs⟩

/-! ## Bus errors (R74, R75) -/

/-- Settles O5: no row matches exactly off the map, and there `exec` answers a bus error. -/
theorem misalignedOrUnmappedIsError : Obligations.MisalignedOrUnmappedIsError := by
  intro s we addr w rest _ hn hagenda
  rw [nextInstr_of_request hagenda, Option.some_inj]
  refine ⟨?_, fun h => ?_⟩
  · exact (decodeBus_busReq_eq_busErr_iff hn we addr w).trans (mapped_eq_false_iff_ranges hn)
  · rw [step_of_request hagenda, h]
    rfl

/-! ## Writes to read-only locations (R77) -/

theorem Block.exists_slot? {b : Block} {i : BitVec 6} (h : i.toNat < b.numOsc) :
    ∃ sl, b.slot? i = some sl :=
  ⟨b.slots[i.toNat], List.getElem?_eq_getElem h⟩

theorem execWrPhase_some {s : State} {i : BitVec 6} {sl : Slot} (w : Word)
    (h : s.block.slot? i = some sl) : execWrPhase i w s = .next { s with resp := .okayWrite } := by
  simp [execWrPhase, h, State.discardWrite, State.finish_eq]

theorem exec_readOnlyWrite {i : Instr} {s : State} (hi : isReadOnlyWrite i = true)
    (hwf : i.wf s.block.numOsc = true) : exec i s = .next { s with resp := .okayWrite } := by
  cases i with
  | wrPhase i w =>
    obtain ⟨sl, hsl⟩ := Block.exists_slot? (of_decide_eq_true hwf)
    exact execWrPhase_some w hsl
  | wrId | wrStatus | wrFramecnt | wrBlkcnt | wrErrinfo | wrBuf => rfl
  | _ => cases hi

/-- Settles O20: the rows of the writes, and `exec` of each. -/
theorem readOnlyWritesChangeNothing : Obligations.ReadOnlyWritesChangeNothing := by
  refine ⟨fun n w => ⟨rfl, rfl, rfl, rfl, rfl, fun i hi => ?_, fun k => ?_⟩,
    fun _ _ => exec_readOnlyWrite, fun _ => rfl⟩
  · exact decode_slotReq 1#1 w hi rfl
  · exact decode_bufReq n 1#1 k w

/-! ## The frozen configuration (R84) -/

/-- A tick moves phases alone, so it keeps what a slot function reads from the other fields. -/
theorem Block.tick_slots_map {α : Type} (b : Block) (f : Slot → α) (hf : ∀ sl : Slot, f sl.tick = f sl) :
    b.tick.slots.map f = b.slots.map f := by
  apply List.ext_getElem (by simp)
  intro i _ hi
  rw [List.getElem_map, List.getElem_map, b.tick_slot i (by simpa using hi)]
  split
  · exact hf _
  · rfl

theorem configuration_frameStep (b : Block) : configuration b.frameStep = configuration b := by
  simp only [configuration, Block.frameStep_lkind, Block.frameStep_rkind, Block.frameStep_nleft,
    Block.frameStep_nright, Block.frameStep_len, Block.frameStep_slots]
  rw [b.tick_slots_map _ fun _ => rfl]

theorem Block.Caused.configuration_eq {b b' : Block} {c : Instr} (h : b.Caused c b') (hs : b.seq ≠ .idle)
    (hr : c ≠ .softreset) : configuration b' = configuration b := by
  cases h with
  | configured hidle => exact absurd hidle hs
  | rejected _ _ hidle => exact absurd hidle hs
  | started hidle => exact absurd hidle hs
  | reset => exact absurd rfl hr
  | _ => rfl

theorem State.Caused.configuration_eq {s : State} {b' : Block} (h : s.Caused b') (hs : s.block.seq ≠ .idle)
    (hr : ¬ Resets s) : configuration b' = configuration s.block := by
  cases h with
  | waited => rfl
  | framed => exact configuration_frameStep _
  | hardReset h => exact absurd (.inl h) hr
  | ran i hn _ hb => exact hb.configuration_eq hs fun hi => hr (resets_of_commandOf hn hi)

/-- Settles O54: the effects on the configuration are those of IDLE, and the resets. -/
theorem configurationIsFrozenOutsideIdle : Obligations.ConfigurationIsFrozenOutsideIdle := by
  intro s t h hs hr
  exact (step_caused h).configuration_eq hs hr

end Sys2Proof.Machine
end

section
/-! PROOFS. 20_memory.md R79: what is idempotent, reads and configuration writes, and what is not, START. -/

namespace Sys2Proof.Machine

open Sys2Proof.Claims

/-! ## Reads -/

/-- No operation looks at the response of the step before it (log 3): each ends in a `State.finish` of the
block, which writes its own. -/
theorem exec_with_resp (i : Instr) (s : State) (q : Response) : exec i { s with resp := q } = exec i s := by
  cases i <;> rfl

theorem State.readSlot_resp (s : State) (i : BitVec 6) (f : Slot → Word) :
    ∃ r, s.readSlot i f = .next { s with resp := r } := by
  cases h : s.block.slot? i with
  | some sl => exact ⟨_, s.readSlot_some i f sl h⟩
  | none => exact ⟨_, s.readSlot_none i f h⟩

theorem exec_read {i : Instr} (s : State) (hi : isRead i = true) :
    ∃ r, exec i s = .next { s with resp := r } := by
  cases i with
  | rdPinc i | rdPinit i | rdDuty i | rdAmp i | rdPhase i => exact s.readSlot_resp i _
  | rdId | rdStatus | rdCmd | rdChcfg | rdNosc | rdBlklen | rdFramecnt | rdBlkcnt | rdErrinfo | rdBuf
  | sinkRead | busErr => exact ⟨_, rfl⟩
  | _ => cases hi

/-! ## Configuration writes in IDLE -/

theorem State.configWrite_idempotent (s : State) (f : Block → Block) (hs : s.block.seq = .idle)
    (hseq : (f s.block).seq = .idle) (hf : f (f s.block) = f s.block) :
    ∃ t, s.configWrite f = .next t ∧ t.configWrite f = .next t := by
  refine ⟨_, s.configWrite_idle f hs, ?_⟩
  rw [State.configWrite_idle _ f hseq]
  simp only [hf]

theorem Block.slot?_lt {b : Block} {i : BitVec 6} {sl : Slot} (h : b.slot? i = some sl) :
    i.toNat < b.numOsc :=
  ((b.slot?_eq_some_iff i sl).1 h).1

theorem Block.slot?_setSlot {b : Block} {i : BitVec 6} (h : i.toNat < b.numOsc) (sl : Slot) :
    (b.setSlot i sl).slot? i = some sl :=
  List.getElem?_set_self h

theorem Block.setSlot_setSlot (b : Block) (i : BitVec 6) (sl sl' : Slot) :
    (b.setSlot i sl).setSlot i sl' = b.setSlot i sl' := by
  simp [Block.setSlot]

theorem State.writeSlot_idle (s : State) {i : BitVec 6} {sl : Slot} (f : Slot → Slot)
    (hs : s.block.seq = .idle) (hsl : s.block.slot? i = some sl) :
    s.writeSlot i f = .next { s with block := s.block.setSlot i (f sl), resp := .okayWrite } := by
  rw [s.writeSlot_some i f sl hsl, s.configWrite_idle _ hs]

theorem State.writeSlot_idempotent (s : State) (i : BitVec 6) (f : Slot → Slot)
    (hs : s.block.seq = .idle) (hf : ∀ sl, f (f sl) = f sl) :
    ∃ t, s.writeSlot i f = .next t ∧ t.writeSlot i f = .next t := by
  cases hsl : s.block.slot? i with
  | some sl =>
    refine ⟨_, s.writeSlot_idle f hs hsl, ?_⟩
    have hslot := Block.slot?_setSlot (Block.slot?_lt hsl) (f sl)
    rw [State.writeSlot_idle ⟨s.block.setSlot i (f sl), .okayWrite, s.agenda⟩ f hs hslot]
    simp only [hf, Block.setSlot_setSlot]
  | none => exact ⟨_, s.writeSlot_none i f hsl, State.writeSlot_none _ i f hsl⟩

theorem exec_configWrite_idempotent {i : Instr} (s : State) (hi : isConfigWrite i = true)
    (hs : s.block.seq = .idle) : ∃ t, exec i s = .next t ∧ exec i t = .next t := by
  cases i with
  | wrChcfg w =>
    exact s.configWrite_idempotent (fun b => { b with lkind := wdataLkind w, rkind := wdataRkind w })
      hs hs rfl
  | wrNosc w =>
    exact s.configWrite_idempotent (fun b => { b with nleft := wdataNleft w, nright := wdataNright w })
      hs hs rfl
  | wrBlklen w => exact s.configWrite_idempotent (fun b => { b with len := wdataLen w }) hs hs rfl
  | wrPinc i | wrPinit i | wrDuty i | wrAmp i => exact s.writeSlot_idempotent i _ hs fun _ => rfl
  | _ => cases hi

/-! ## START twice -/

/-- START leaves IDLE, accepted or rejected, and raises no CMD_ERR there. -/
theorem Block.start_of_idle {b : Block} (hs : b.seq = .idle) :
    b.start.seq ≠ .idle ∧ b.start.cmdErr = b.cmdErr := by
  cases hv : b.validate with
  | none => rw [b.start_accepted hs hv]; exact ⟨nofun, rfl⟩
  | some p => rw [b.start_rejected p.1 p.2 hs hv]; exact ⟨nofun, rfl⟩

/-- Settles O12; the second START finds the block outside IDLE. -/
theorem noReadHasASideEffect : Obligations.NoReadHasASideEffect := by
  refine ⟨fun i s hi => ?_, fun i s hi hs => exec_configWrite_idempotent s hi hs, fun s hs hcmd => ?_⟩
  · obtain ⟨r, hr⟩ := exec_read s hi
    exact ⟨r, hr, (exec_with_resp i s r).trans hr⟩
  · obtain ⟨hleft, hflag⟩ := Block.start_of_idle hs
    exact ⟨_, _, rfl, rfl, hflag.trans hcmd, s.block.start.start_outside_idle hleft⟩

end Sys2Proof.Machine
end

section
/-! PROOFS. 20_memory.md R76: reserved bits read as zero, and written fields read back. A mask is cut into the
fields of its register: all ones or zero on each. -/

namespace Sys2Proof.Machine

/-! ## Masks, field by field -/

theorem and_concat {m n : Nat} (w : BitVec (m + n)) (c : BitVec m) (d : BitVec n) :
    w &&& (c ++ d) = (w.extractLsb' n m &&& c) ++ (w.extractLsb' 0 n &&& d) := by
  rw [← BitVec.and_append, BitVec.extractLsb'_append_extractLsb'_eq_extractLsb' (Nat.zero_add n).symm,
    BitVec.extractLsb'_eq_self]

theorem extractLsb'_extractLsb' {m : Nat} (x : BitVec m) {start len start' len' : Nat}
    (h : start' + len' ≤ len) :
    (x.extractLsb' start len).extractLsb' start' len' = x.extractLsb' (start + start') len' := by
  ext j hj
  simp only [BitVec.getElem_extractLsb', BitVec.getLsbD_extractLsb', Nat.add_assoc,
    Bool.and_eq_right_iff_imp, decide_eq_true_eq]
  omega

/-! ## The image of a written register -/

theorem Kind.code_kindOfCode : ∀ c : BitVec 2, (kindOfCode c).code = c := by decide

theorem chcfgImage_wdata (b : Block) (w : Word) :
    chcfgImage { b with lkind := wdataLkind w, rkind := wdataRkind w } = w &&& 0x0000000F#32 := by
  refine Eq.trans ?_ (and_concat (m := 28 + 2) w (0#28 ++ BitVec.allOnes 2) (BitVec.allOnes 2)).symm
  rw [and_concat, extractLsb'_extractLsb' w (by decide), extractLsb'_extractLsb' w (by decide)]
  simp only [BitVec.and_zero, BitVec.and_allOnes, chcfgImage, wdataLkind, wdataRkind,
    Kind.code_kindOfCode]

theorem noscImage_wdata (b : Block) (w : Word) :
    noscImage { b with nleft := wdataNleft w, nright := wdataNright w } = w &&& 0x00007F7F#32 := by
  refine Eq.trans ?_
    (and_concat (m := 17 + 7 + 1) w (0#17 ++ BitVec.allOnes 7 ++ 0#1) (BitVec.allOnes 7)).symm
  rw [and_concat, and_concat, extractLsb'_extractLsb' w (by decide),
    extractLsb'_extractLsb' w (by decide), extractLsb'_extractLsb' w (by decide)]
  simp only [BitVec.and_zero, BitVec.and_allOnes, noscImage, wdataNleft, wdataNright]

theorem blklenImage_wdata (b : Block) (w : Word) :
    blklenImage { b with len := wdataLen w } = w &&& 0x00001FFF#32 := by
  refine Eq.trans ?_ (and_concat (m := 19) w 0#19 (BitVec.allOnes 13)).symm
  simp only [BitVec.and_zero, BitVec.and_allOnes, blklenImage, wdataLen]

theorem ampImage_wdata (sl : Slot) (w : Word) :
    ampImage { sl with amp := wdataAmp w } = w &&& 0x0000FFFF#32 := by
  refine Eq.trans ?_ (and_concat (m := 16) w 0#16 (BitVec.allOnes 16)).symm
  simp only [BitVec.and_zero, BitVec.and_allOnes, ampImage, wdataAmp]

/-! ## The reserved bits of an image -/

theorem statusImage_reserved (b : Block) : statusImage b &&& 0xFFFFFF0C#32 = 0#32 := by
  change (0#24 ++ bit b.wign ++ bit b.cmdErr ++ bit b.sinkErr ++ bit b.cfgErr ++ 0#2 ++ b.seq.code :
      BitVec (24 + 1 + 1 + 1 + 1 + 2 + 2)) &&&
    (BitVec.allOnes 24 ++ 0#1 ++ 0#1 ++ 0#1 ++ 0#1 ++ BitVec.allOnes 2 ++ 0#2) = 0#32
  simp only [BitVec.and_append, BitVec.and_zero, BitVec.zero_and]
  rfl

theorem chcfgImage_reserved (b : Block) : chcfgImage b &&& 0xFFFFFFF0#32 = 0#32 := by
  change (0#28 ++ b.rkind.code ++ b.lkind.code : BitVec (28 + 2 + 2)) &&&
    (BitVec.allOnes 28 ++ 0#2 ++ 0#2) = 0#32
  simp only [BitVec.and_append, BitVec.and_zero, BitVec.zero_and]
  rfl

theorem noscImage_reserved (b : Block) : noscImage b &&& 0xFFFF8080#32 = 0#32 := by
  change (0#17 ++ b.nright ++ 0#1 ++ b.nleft : BitVec (17 + 7 + 1 + 7)) &&&
    (BitVec.allOnes 17 ++ 0#7 ++ BitVec.allOnes 1 ++ 0#7) = 0#32
  simp only [BitVec.and_append, BitVec.and_zero, BitVec.zero_and]
  rfl

/-- One lemma for BLKLEN and FRAMECNT: each is 13 bits under 19 reserved ones. -/
theorem concat13_reserved (x : BitVec 13) : (0#19 ++ x : BitVec (19 + 13)) &&& 0xFFFFE000#32 = 0#32 := by
  change (0#19 ++ x : BitVec (19 + 13)) &&& (BitVec.allOnes 19 ++ 0#13) = 0#32
  simp only [BitVec.and_append, BitVec.and_zero, BitVec.zero_and]
  rfl

theorem errinfoImage_reserved (b : Block) : errinfoImage b &&& 0xE000C0F0#32 = 0#32 := by
  change (0#3 ++ b.errInfo.written ++ 0#2 ++ b.errInfo.osc ++ 0#4 ++ b.errInfo.code.code :
      BitVec (3 + 13 + 2 + 6 + 4 + 4)) &&&
    (BitVec.allOnes 3 ++ 0#13 ++ BitVec.allOnes 2 ++ 0#6 ++ BitVec.allOnes 4 ++ 0#4) = 0#32
  simp only [BitVec.and_append, BitVec.and_zero, BitVec.zero_and]
  rfl

theorem ampImage_reserved (sl : Slot) : ampImage sl &&& 0xFFFF0000#32 = 0#32 := by
  change (0#16 ++ sl.amp : BitVec (16 + 16)) &&& (BitVec.allOnes 16 ++ 0#16) = 0#32
  simp only [BitVec.and_append, BitVec.and_zero, BitVec.zero_and]
  rfl

/-! ## A read after a write in IDLE -/

theorem State.answerRead_after_configWrite (s : State) (f : Block → Block) (image : Block → Word) {v : Word}
    (hs : s.block.seq = .idle) (hv : image (f s.block) = v) :
    ∃ t, s.configWrite f = .next t ∧
      t.answerRead (image t.block) = .next { t with resp := .okayRead v } := by
  refine ⟨_, s.configWrite_idle f hs, ?_⟩
  rw [hv]
  rfl

theorem State.readSlot_after_writeSlot (s : State) {i : BitVec 6} (f : Slot → Slot) (g : Slot → Word)
    {v : Word} (hs : s.block.seq = .idle) (hi : i.toNat < s.block.numOsc) (hv : ∀ sl, g (f sl) = v) :
    ∃ t, s.writeSlot i f = .next t ∧ t.readSlot i g = .next { t with resp := .okayRead v } := by
  obtain ⟨sl, hsl⟩ := Block.exists_slot? hi
  refine ⟨_, s.writeSlot_idle f hs hsl, ?_⟩
  rw [State.readSlot_some _ i g (f sl) (Block.slot?_setSlot hi (f sl)), hv]

/-- Settles O24: each read after its write, then the reserved bits of each image. -/
theorem writtenConfigurationReadsBackMasked : Obligations.WrittenConfigurationReadsBackMasked := by
  refine ⟨fun s w hs => ⟨?_, ?_, ?_, fun i hi => ⟨?_, ?_, ?_, ?_⟩⟩,
    fun s => ⟨⟨_, rfl, statusImage_reserved _⟩, ⟨_, rfl, chcfgImage_reserved _⟩,
      ⟨_, rfl, noscImage_reserved _⟩, ⟨_, rfl, concat13_reserved _⟩, ⟨_, rfl, concat13_reserved _⟩,
      ⟨_, rfl, errinfoImage_reserved _⟩, fun i hi => ?_⟩⟩
  · exact s.answerRead_after_configWrite (fun b => { b with lkind := wdataLkind w, rkind := wdataRkind w })
      chcfgImage hs (chcfgImage_wdata s.block w)
  · exact s.answerRead_after_configWrite (fun b => { b with nleft := wdataNleft w, nright := wdataNright w })
      noscImage hs (noscImage_wdata s.block w)
  · exact s.answerRead_after_configWrite (fun b => { b with len := wdataLen w })
      blklenImage hs (blklenImage_wdata s.block w)
  · exact s.readSlot_after_writeSlot (fun sl => { sl with amp := wdataAmp w })
      ampImage hs hi fun sl => ampImage_wdata sl w
  · exact s.readSlot_after_writeSlot _ Slot.pinc hs hi fun _ => rfl
  · exact s.readSlot_after_writeSlot _ Slot.pinit hs hi fun _ => rfl
  · exact s.readSlot_after_writeSlot _ Slot.duty hs hi fun _ => rfl
  · obtain ⟨sl, hsl⟩ := Block.exists_slot? hi
    exact ⟨_, s.readSlot_some i ampImage sl hsl, ampImage_reserved sl⟩

end Sys2Proof.Machine
end

section
/-! PROOFS. 30_encoding.md R101 to R104: the valid rows of the BUS table by the number of the address, and the
decoder as their inversion. Each statement about the BUS encodings is then read off the rows. -/

namespace Sys2Proof.Machine

/-! ## A request in numbers (R101) -/

theorem reqWe_eq_decide (req : BitVec 17) : reqWe req = decide (2 ^ 16 ≤ req.toNat) :=
  req.msb_eq_decide

theorem reqAddr_toNat (req : BitVec 17) : (reqAddr req).toNat = req.toNat % 2 ^ 16 := by
  rw [reqAddr, extractLsb'_toNat_eq_div, Nat.pow_zero, Nat.div_one]

theorem busReq_toNat (we : Bool) {a : Nat} (ha : a < 2 ^ 16) :
    (busReq we a).toNat = (if we then 2 ^ 16 else 0) + a := by
  rw [busReq, BitVec.toNat_ofNat]
  split <;> omega

/-- WE and ADDR are all of REQ. -/
theorem busReq_reqWe_reqAddr (req : BitVec 17) : busReq (reqWe req) (reqAddr req).toNat = req := by
  have hreq := req.isLt
  rw [← BitVec.toNat_inj, busReq_toNat _ (reqAddr req).isLt, reqAddr_toNat, reqWe_eq_decide]
  simp only [decide_eq_true_eq]
  split <;> omega

/-! ## The valid rows -/

theorem decodeAddr_global (n : Nat) (we : Bool) {addr : BitVec 16} (w : Word) {g : Nat} (hg : g < 16)
    (h : addr.toNat = 4 * g) : decodeAddr n we addr w = decodeGlobal we g w := by
  have haligned : addr.extractLsb' 0 2 = 0#2 := by
    rw [extractLsb'_eq_iff, BitVec.toNat_ofNat]
    omega
  have hbuf : addr.extractLsb' 14 2 ≠ 1#2 := by
    rw [ne_eq, extractLsb'_eq_iff, BitVec.toNat_ofNat]
    omega
  have hslots : addr.extractLsb' 11 5 ≠ 1#5 := by
    rw [ne_eq, extractLsb'_eq_iff, BitVec.toNat_ofNat]
    omega
  have hglobal : addr.extractLsb' 6 10 = 0#10 := by
    rw [extractLsb'_eq_iff, BitVec.toNat_ofNat]
    omega
  have hgidx : (addr.extractLsb' 2 4).toNat = g := by
    rw [extractLsb'_toNat_eq_div]
    omega
  simp [decodeAddr, haligned, hbuf, hslots, hglobal, hgidx]

theorem decodeGlobal_lt {we : Bool} {g : Nat} {w : Word} {op : Instr}
    (h : decodeGlobal we g w = some op) : g < 9 := by
  by_contra hg
  simp [(decodeGlobal_eq_none_iff we g w).2 (by omega)] at h

theorem decodeSlot_lt {we : Bool} {i : BitVec 6} {field : Nat} {w : Word} {op : Instr}
    (h : decodeSlot we i field w = some op) : field < 5 := by
  by_contra hf
  simp [(decodeSlot_eq_none_iff we i field w).2 (by omega)] at h

/-- The operation of the valid row of R104 at a byte address, on a block of `n` slots, for WE and WDATA: a
global register, a field of a slot that exists, or a word of the buffer window. -/
inductive BusOp (n : Nat) (we : Bool) (w : Word) : Nat → Instr → Prop where
  | global (g : Nat) {op : Instr} (h : decodeGlobal we g w = some op) : BusOp n we w (4 * g) op
  | slot (i : BitVec 6) (field : Nat) {op : Instr} (hi : i.toNat < n)
      (h : decodeSlot we i field w = some op) : BusOp n we w (slotAddr i (4 * field)) op
  | frame (k : BitVec 12) : BusOp n we w (frameAddr k) (if we then .wrBuf k w else .rdBuf k)

section BusOp

variable {n a : Nat} {we : Bool} {w : Word} {op : Instr}

theorem BusOp.addr_lt (h : BusOp n we w a op) : a < 2 ^ 16 := by
  cases h with
  | global g h => have := decodeGlobal_lt h; omega
  | slot i field _ h => have := decodeSlot_lt h; have := i.isLt; simp only [slotAddr]; omega
  | frame k => have := k.isLt; simp only [frameAddr]; omega

theorem BusOp.decodeAddr_eq {addr : BitVec 16} (h : BusOp n we w a op) (ha : addr.toNat = a) :
    decodeAddr n we addr w = some op := by
  cases h with
  | global g h =>
    have hg := decodeGlobal_lt h
    rw [decodeAddr_global n we w (by omega) ha, h]
  | slot i field hi h =>
    have hf := decodeSlot_lt h
    rw [decodeAddr_slot we w hi (by omega) ha, h]
  | frame k => exact decodeAddr_frame n we w ha

theorem busOp_of_decodeAddr {addr : BitVec 16} (h : decodeAddr n we addr w = some op) :
    BusOp n we w addr.toNat op := by
  have hlt := addr.isLt
  unfold decodeAddr at h
  split at h
  next => cases h
  next haligned =>
  rw [ne_eq, not_not, extractLsb'_eq_iff, BitVec.toNat_ofNat] at haligned
  split at h
  next hbuf =>
    have haddr : addr.toNat = frameAddr (addrFrame addr) := by
      rw [extractLsb'_eq_iff, BitVec.toNat_ofNat] at hbuf
      rw [frameAddr, addrFrame, extractLsb'_toNat_eq_div]
      omega
    rw [haddr, ← Option.some.inj h]
    exact .frame _
  next =>
  split at h
  next hslots =>
    have haddr : addr.toNat = slotAddr (addrSlot addr) (4 * (addr.extractLsb' 2 3).toNat) := by
      rw [extractLsb'_eq_iff, BitVec.toNat_ofNat] at hslots
      rw [slotAddr, addrSlot, extractLsb'_toNat_eq_div, extractLsb'_toNat_eq_div]
      omega
    split at h
    next hi => exact haddr ▸ .slot _ _ hi h
    next => cases h
  next =>
  split at h
  next hglobal =>
    have haddr : addr.toNat = 4 * (addr.extractLsb' 2 4).toNat := by
      rw [extractLsb'_eq_iff, BitVec.toNat_ofNat] at hglobal
      rw [extractLsb'_toNat_eq_div]
      omega
    exact haddr ▸ .global _ h
  next => cases h

/-- The decoder answers at an address exactly the row there. -/
theorem decodeAddr_eq_some_iff {addr : BitVec 16} :
    decodeAddr n we addr w = some op ↔ BusOp n we w addr.toNat op :=
  ⟨busOp_of_decodeAddr, fun h => h.decodeAddr_eq rfl⟩

theorem BusOp.decode_eq (h : BusOp n we w a op) : decode n (.bus (busReq we a) w) = op := by
  obtain ⟨addr, rfl⟩ : ∃ addr : BitVec 16, addr.toNat = a :=
    ⟨BitVec.ofNat 16 a, Nat.mod_eq_of_lt h.addr_lt⟩
  rw [decode, decodeBus, reqWe_busReq, reqAddr_busReq, h.decodeAddr_eq rfl, Option.getD_some]

end BusOp

/-- A BUS request decodes to the row at its address, or to BUS_ERR where there is none. -/
theorem decodeBus_cases (n : Nat) (req : BitVec 17) (w : Word) :
    BusOp n (reqWe req) w (reqAddr req).toNat (decodeBus n req w) ∨
      decodeAddr n (reqWe req) (reqAddr req) w = none ∧
        decodeBus n req w = .busErr (reqWe req) (reqAddr req) := by
  unfold decodeBus
  cases h : decodeAddr n (reqWe req) (reqAddr req) w with
  | none => exact .inr ⟨rfl, rfl⟩
  | some op => exact .inl (decodeAddr_eq_some_iff.1 h)

end Sys2Proof.Machine
end

section
/-! PROOFS. 30_encoding.md R100 to R109, the round trips: decode of encode on the well-formed operations, the
bytes of a request, well-formedness of what is decoded, and encode of decode on the requests. -/

namespace Sys2Proof.Machine

/-! ## Requests as bytes (log 10) -/

theorem leBytes_length (n w : Nat) : (leBytes n w).length = n := by
  induction n generalizing w with
  | zero => rfl
  | succ n ih => simp [leBytes, ih]

theorem leNat_leBytes (n w : Nat) : leNat (leBytes n w) = w % 256 ^ n := by
  induction n generalizing w with
  | zero => simp [leBytes, leNat, Nat.mod_one]
  | succ n ih =>
    rw [leBytes, leNat, ih, pow_succ', Nat.mod_mul]
    rfl

/-- The bytes of a word that fits in them. -/
theorem leNat_leBytes_toNat {m : Nat} (n : Nat) (x : BitVec m) (h : 2 ^ m ≤ 256 ^ n) :
    leNat (leBytes n x.toNat) = x.toNat := by
  rw [leNat_leBytes, Nat.mod_eq_of_lt (x.isLt.trans_le h)]

theorem ofBytes_toBytes (r : Request) : Request.ofBytes r.port r.toBytes = .ok r := by
  cases r with
  | bus req w =>
    have hlow : (leBytes 3 req.toNat ++ leBytes 4 w.toNat).take 3 = leBytes 3 req.toNat :=
      List.take_left' (leBytes_length _ _)
    have hhigh : (leBytes 3 req.toNat ++ leBytes 4 w.toNat).drop 3 = leBytes 4 w.toNat :=
      List.drop_left' (leBytes_length _ _)
    simp [Request.ofBytes, Request.port, Request.toBytes, Port.bytes, leBytes_length, hlow, hhigh,
      leNat_leBytes_toNat, req.isLt]
  | cmd w =>
    simp [Request.ofBytes, Request.port, Request.toBytes, Port.bytes, leBytes_length, leNat_leBytes_toNat]
  | srd index =>
    simp [Request.ofBytes, Request.port, Request.toBytes, Port.bytes, leBytes_length, leNat_leBytes_toNat,
      index.isLt]
  | srsp w =>
    simp [Request.ofBytes, Request.port, Request.toBytes, Port.bytes, leBytes_length, leNat_leBytes_toNat,
      w.isLt]

theorem decodeBytes_toBytes (n : Nat) (r : Request) : decodeBytes n r.port r.toBytes = .ok (decode n r) := by
  rw [decodeBytes, ofBytes_toBytes]

/-! ## Command words (R105, R106) -/

theorem decodeCmd_of_le {w : Word} (h : 4 ≤ w.toNat) : decodeCmd w = .cmdRsvd w := by
  have hne : ∀ c : Word, c.toNat < 4 → w ≠ c := fun c hc hw => absurd (hw ▸ h) (Nat.not_le.2 hc)
  simp [decodeCmd, cmdSelect, hne]

theorem decodeCmd_wf (n : Nat) (w : Word) : (decodeCmd w).wf n = true := by
  by_cases h : 4 ≤ w.toNat
  · rw [decodeCmd_of_le h]
    exact decide_eq_true h
  · obtain rfl | rfl | rfl | rfl : w = 0#32 ∨ w = 1#32 ∨ w = 2#32 ∨ w = 3#32 := by bv_omega
    all_goals rfl

/-! ## Sink responses (R108) -/

theorem srspErr_eq_decide (w : BitVec 14) : w.getLsbD 13 = decide (2 ^ 13 ≤ w.toNat) :=
  w.msb_eq_decide

theorem decodeSrsp_done (n : BitVec 13) : decodeSrsp (BitVec.ofNat 14 n.toNat) = .sinkDone n := by
  have hn := n.isLt
  have hfield : (BitVec.ofNat 14 n.toNat).extractLsb' 0 13 = n := by
    rw [extractLsb'_eq_iff, BitVec.toNat_ofNat]
    omega
  rw [decodeSrsp, srspErr_eq_decide, hfield, if_neg]
  rw [decide_eq_true_eq, BitVec.toNat_ofNat]
  omega

theorem decodeSrsp_error (n : BitVec 13) :
    decodeSrsp (BitVec.ofNat 14 (0x2000 + n.toNat)) = .sinkError n := by
  have hn := n.isLt
  have hfield : (BitVec.ofNat 14 (0x2000 + n.toNat)).extractLsb' 0 13 = n := by
    rw [extractLsb'_eq_iff, BitVec.toNat_ofNat]
    omega
  rw [decodeSrsp, srspErr_eq_decide, hfield, if_pos]
  rw [decide_eq_true_eq, BitVec.toNat_ofNat]
  omega

theorem encode_decodeSrsp (w : BitVec 14) : encode (decodeSrsp w) = .srsp w := by
  have hw := w.isLt
  rw [decodeSrsp, srspErr_eq_decide]
  split
  all_goals
    rename_i herr
    rw [decide_eq_true_eq] at herr
    rw [encode, Request.srsp.injEq, ← BitVec.toNat_inj, BitVec.toNat_ofNat, extractLsb'_toNat_eq_div]
    omega

/-! ## Decode of encode -/

theorem decode_encode {n : Nat} (hn : n ≤ 64) (i : Instr) (h : i.wf n = true) : decode n (encode i) = i := by
  cases i with
  | rdId => exact (BusOp.global 0 rfl).decode_eq
  | wrId => exact (BusOp.global 0 rfl).decode_eq
  | rdStatus => exact (BusOp.global 1 rfl).decode_eq
  | wrStatus => exact (BusOp.global 1 rfl).decode_eq
  | rdCmd => exact (BusOp.global 2 rfl).decode_eq
  | wrCmd => exact (BusOp.global 2 rfl).decode_eq
  | rdChcfg => exact (BusOp.global 3 rfl).decode_eq
  | wrChcfg => exact (BusOp.global 3 rfl).decode_eq
  | rdNosc => exact (BusOp.global 4 rfl).decode_eq
  | wrNosc => exact (BusOp.global 4 rfl).decode_eq
  | rdBlklen => exact (BusOp.global 5 rfl).decode_eq
  | wrBlklen => exact (BusOp.global 5 rfl).decode_eq
  | rdFramecnt => exact (BusOp.global 6 rfl).decode_eq
  | wrFramecnt => exact (BusOp.global 6 rfl).decode_eq
  | rdBlkcnt => exact (BusOp.global 7 rfl).decode_eq
  | wrBlkcnt => exact (BusOp.global 7 rfl).decode_eq
  | rdErrinfo => exact (BusOp.global 8 rfl).decode_eq
  | wrErrinfo => exact (BusOp.global 8 rfl).decode_eq
  | rdPinc i => exact (BusOp.slot i 0 (of_decide_eq_true h) rfl).decode_eq
  | wrPinc i => exact (BusOp.slot i 0 (of_decide_eq_true h) rfl).decode_eq
  | rdPinit i => exact (BusOp.slot i 1 (of_decide_eq_true h) rfl).decode_eq
  | wrPinit i => exact (BusOp.slot i 1 (of_decide_eq_true h) rfl).decode_eq
  | rdDuty i => exact (BusOp.slot i 2 (of_decide_eq_true h) rfl).decode_eq
  | wrDuty i => exact (BusOp.slot i 2 (of_decide_eq_true h) rfl).decode_eq
  | rdAmp i => exact (BusOp.slot i 3 (of_decide_eq_true h) rfl).decode_eq
  | wrAmp i => exact (BusOp.slot i 3 (of_decide_eq_true h) rfl).decode_eq
  | rdPhase i => exact (BusOp.slot i 4 (of_decide_eq_true h) rfl).decode_eq
  | wrPhase i => exact (BusOp.slot i 4 (of_decide_eq_true h) rfl).decode_eq
  | rdBuf k => exact (BusOp.frame (we := false) k).decode_eq
  | wrBuf k => exact (BusOp.frame (we := true) k).decode_eq
  | busErr we addr => exact (decodeBus_busReq_eq_busErr_iff hn we addr _).2 (by simpa [Instr.wf] using h)
  | nop => rfl
  | start => rfl
  | softreset => rfl
  | clear => rfl
  | cmdRsvd w => exact decodeCmd_of_le (of_decide_eq_true h)
  | sinkRead => rfl
  | sinkDone n => exact decodeSrsp_done n
  | sinkError n => exact decodeSrsp_error n

/-- Settles O1: the request by `decode_encode`, its bytes by `ofBytes_toBytes`. -/
theorem decodeOfEncodeIsIdentity : Obligations.DecodeOfEncodeIsIdentity := by
  intro n i hn hi
  have hrequest := decode_encode hn i hi
  exact ⟨hrequest, by rw [decodeBytes_toBytes, hrequest]⟩

/-! ## Well-formedness of what is decoded (R109) -/

theorem decodeGlobal_wf {we : Bool} {g : Nat} {w : Word} {op : Instr} (n : Nat)
    (h : decodeGlobal we g w = some op) : op.wf n = true := by
  unfold decodeGlobal at h
  split at h
  all_goals cases h <;> cases we <;> rfl

theorem decodeSlot_wf {n : Nat} {we : Bool} {i : BitVec 6} {field : Nat} {w : Word} {op : Instr}
    (hi : i.toNat < n) (h : decodeSlot we i field w = some op) : op.wf n = true := by
  unfold decodeSlot at h
  split at h
  all_goals cases h <;> cases we <;> exact decide_eq_true hi

theorem BusOp.wf {n a : Nat} {we : Bool} {w : Word} {op : Instr} (h : BusOp n we w a op) :
    op.wf n = true := by
  cases h with
  | global g h => exact decodeGlobal_wf n h
  | slot i field hi h => exact decodeSlot_wf hi h
  | frame k => cases we <;> rfl

theorem decodeBus_wf {n : Nat} (hn : n ≤ 64) (req : BitVec 17) (w : Word) :
    (decodeBus n req w).wf n = true := by
  obtain h | ⟨hnone, h⟩ := decodeBus_cases n req w
  · exact h.wf
  · rw [h, Instr.wf, (decodeAddr_eq_none_iff hn _ _ w).1 hnone, Bool.not_false]

/-- Settles O3, format by format. -/
theorem decodedOperationIsWellFormed : Obligations.DecodedOperationIsWellFormed := by
  intro n r hn
  cases r with
  | bus req w => exact decodeBus_wf hn req w
  | cmd w => exact decodeCmd_wf n w
  | srd index => rfl
  | srsp w =>
    rw [decode, decodeSrsp]
    split <;> rfl

/-! ## Encode of decode (R101, R102; log 11) -/

theorem encode_decodeGlobal {we : Bool} {g : Nat} {w : Word} {op : Instr}
    (h : decodeGlobal we g w = some op) :
    encode op = .bus (busReq we (4 * g)) (if we then w else 0#32) := by
  unfold decodeGlobal at h
  split at h
  all_goals cases h <;> cases we <;> rfl

theorem encode_decodeSlot {we : Bool} {i : BitVec 6} {field : Nat} {w : Word} {op : Instr}
    (h : decodeSlot we i field w = some op) :
    encode op = .bus (busReq we (slotAddr i (4 * field))) (if we then w else 0#32) := by
  unfold decodeSlot at h
  split at h
  all_goals cases h <;> cases we <;> rfl

/-- The operation of a row keeps the address and, of a write, the data. -/
theorem BusOp.encode_eq {n a : Nat} {we : Bool} {w : Word} {op : Instr} (h : BusOp n we w a op) :
    encode op = .bus (busReq we a) (if we then w else 0#32) := by
  cases h with
  | global g h => exact encode_decodeGlobal h
  | slot i field _ h => exact encode_decodeSlot h
  | frame k => cases we <;> rfl

theorem encode_decodeBus (n : Nat) (req : BitVec 17) (w : Word) :
    ∃ d, encode (decodeBus n req w) = .bus req d ∧
      (reqWe req = true → (∀ we addr, decodeBus n req w ≠ .busErr we addr) → d = w) := by
  have hreq := busReq_reqWe_reqAddr req
  obtain h | ⟨-, h⟩ := decodeBus_cases n req w
  · exact ⟨_, hreq ▸ h.encode_eq, fun hwe _ => if_pos hwe⟩
  · refine ⟨0#32, ?_, fun _ hne => absurd h (hne _ _)⟩
    rw [h, encode, hreq]

/-- Settles O4; a command word by `encode_decodeCmd`, a sink index by definition. -/
theorem encodeOfDecodeKeepsRequest : Obligations.EncodeOfDecodeKeepsRequest := by
  intro n _
  exact ⟨encode_decodeBus n, encode_decodeCmd, fun _ => rfl, encode_decodeSrsp⟩

end Sys2Proof.Machine
end

section
/-! PROOFS. 30_encoding.md R104 and R113: the opcode table is the list of the valid rows. A request matches a
row of the table exactly when the row's operation stands at its address, so the first match is the decoder's
answer. -/

namespace Sys2Proof.Machine

open Sys2Proof.Claims

/-! ## The rows, by register and by WE -/

/-- The row of global register `g`. Match and mask of a row are numbers of the table; `globalRows_eq` and
`indexedRows_eq` tie them to it. -/
def globalRow (we : Bool) (g : Nat) (op : Instr) : BusRow :=
  ⟨busReq we (4 * g), 0x1FFFF#17, false, op⟩

/-- The row of a slot field: its match is the request of slot 0, and the mask leaves the slot index free. -/
def slotRow (we : Bool) (field : Nat) (op : Instr) : BusRow :=
  ⟨busReq we (slotAddr 0#6 (4 * field)), 0x1F81F#17, true, op⟩

/-- The row of the buffer window: its match is the request of frame 0, and the mask leaves the index free. -/
def frameRow (we : Bool) (op : Instr) : BusRow :=
  ⟨busReq we (frameAddr 0#12), 0x1C003#17, false, op⟩

theorem globalRows_eq (w : Word) :
    globalRows w = (List.range 9).flatMap fun g =>
      [false, true].filterMap fun we => (decodeGlobal we g w).map (globalRow we g) := rfl

theorem indexedRows_eq (i : BitVec 6) (k : BitVec 12) (w : Word) :
    indexedRows i k w =
      ((List.range 5).flatMap fun field =>
        [false, true].filterMap fun we => (decodeSlot we i field w).map (slotRow we field)) ++
      [false, true].map fun we => frameRow we (if we then .wrBuf k w else .rdBuf k) := rfl

theorem mem_globalRows_iff {w : Word} {row : BusRow} :
    row ∈ globalRows w ↔ ∃ g we op, decodeGlobal we g w = some op ∧ row = globalRow we g op := by
  simp only [globalRows_eq, List.mem_flatMap, List.mem_range, List.mem_filterMap, Option.map_eq_some_iff]
  constructor
  · rintro ⟨g, -, we, -, op, hop, rfl⟩
    exact ⟨g, we, op, hop, rfl⟩
  · rintro ⟨g, we, op, hop, rfl⟩
    exact ⟨g, decodeGlobal_lt hop, we, by cases we <;> simp, op, hop, rfl⟩

theorem mem_indexedRows_iff {i : BitVec 6} {k : BitVec 12} {w : Word} {row : BusRow} :
    row ∈ indexedRows i k w ↔
      (∃ field we op, decodeSlot we i field w = some op ∧ row = slotRow we field op) ∨
      ∃ we : Bool, row = frameRow we (if we then .wrBuf k w else .rdBuf k) := by
  simp only [indexedRows_eq, List.mem_append, List.mem_flatMap, List.mem_range, List.mem_filterMap,
    List.mem_map, Option.map_eq_some_iff]
  constructor
  · rintro (⟨field, -, we, -, op, hop, rfl⟩ | ⟨we, -, rfl⟩)
    · exact .inl ⟨field, we, op, hop, rfl⟩
    · exact .inr ⟨we, rfl⟩
  · rintro (⟨field, we, op, hop, rfl⟩ | ⟨we, rfl⟩)
    · exact .inl ⟨field, decodeSlot_lt hop, we, by cases we <;> simp, op, hop, rfl⟩
    · exact .inr ⟨we, by cases we <;> simp, rfl⟩

/-! ## When a request matches a row -/

/-- A mask of ones around `b` zeros cuts those bits out of a number. -/
theorem and_gapMask_toNat {a b c : Nat} (x : BitVec (a + b + c)) :
    (x &&& (BitVec.allOnes a ++ 0#b ++ BitVec.allOnes c)).toNat =
      x.toNat / 2 ^ (c + b) % 2 ^ a * 2 ^ b * 2 ^ c + x.toNat % 2 ^ c := by
  rw [and_concat, and_concat, BitVec.and_zero, BitVec.and_allOnes, BitVec.and_allOnes,
    extractLsb'_extractLsb' x (Nat.add_comm b a).le, toNat_concat, toNat_concat, toNat_zero,
    extractLsb'_toNat_eq_div, extractLsb'_toNat_eq_div, Nat.add_zero, Nat.pow_zero, Nat.div_one]

theorem and_slotMask_toNat (req : BitVec 17) :
    (req &&& 0x1F81F#17).toNat = req.toNat / 2 ^ 11 * 2 ^ 11 + req.toNat % 2 ^ 5 := by
  have hreq := req.isLt
  refine (and_gapMask_toNat (a := 6) (b := 6) (c := 5) req).trans ?_
  omega

theorem and_frameMask_toNat (req : BitVec 17) :
    (req &&& 0x1C003#17).toNat = req.toNat / 2 ^ 14 * 2 ^ 14 + req.toNat % 2 ^ 2 := by
  have hreq := req.isLt
  refine (and_gapMask_toNat (a := 3) (b := 12) (c := 2) req).trans ?_
  omega

theorem eq_busReq_iff {req : BitVec 17} {we : Bool} {a : Nat} (ha : a < 2 ^ 16) :
    req = busReq we a ↔ reqWe req = we ∧ (reqAddr req).toNat = a := by
  have hreq := req.isLt
  rw [← BitVec.toNat_inj, busReq_toNat we ha, reqWe_eq_decide, reqAddr_toNat]
  cases we
  · simp only [Bool.false_eq_true, if_false, decide_eq_false_iff_not]
    omega
  · simp only [if_true, decide_eq_true_eq]
    omega

/-- R113: mask and match of a row, and its condition on the slot index. -/
def rowMatches (n : Nat) (req : BitVec 17) (row : BusRow) : Bool :=
  decide (req &&& row.mask = row.bits) && (!row.needsSlot || decide ((req.extractLsb' 5 6).toNat < n))

theorem rowMatches_iff {n : Nat} {req : BitVec 17} {row : BusRow} :
    rowMatches n req row = true ↔
      req &&& row.mask = row.bits ∧ (row.needsSlot = true → (req.extractLsb' 5 6).toNat < n) := by
  simp only [rowMatches, Bool.and_eq_true, Bool.or_eq_true, Bool.not_eq_true', decide_eq_true_eq,
    imp_iff_not_or, Bool.not_eq_true]

section Rows

variable {n : Nat} {we : Bool} {op : Instr} {req : BitVec 17}

theorem rowMatches_globalRow_iff {g : Nat} (hg : g < 9) :
    rowMatches n req (globalRow we g op) = true ↔ reqWe req = we ∧ (reqAddr req).toNat = 4 * g := by
  have hmask : req &&& 0x1FFFF#17 = req := BitVec.and_allOnes
  rw [rowMatches_iff, ← eq_busReq_iff (by omega)]
  simp [globalRow, hmask]

theorem and_slotMask_eq_busReq_iff {field : Nat} (hf : field < 5) :
    req &&& 0x1F81F#17 = busReq we (slotAddr 0#6 (4 * field)) ↔
      reqWe req = we ∧ (reqAddr req).toNat = slotAddr (req.extractLsb' 5 6) (4 * field) := by
  have hreq := req.isLt
  have hbase : slotAddr 0#6 (4 * field) = 0x800 + 4 * field := rfl
  have hfull : slotAddr (req.extractLsb' 5 6) (4 * field) =
      0x800 + 0x20 * (req.toNat / 2 ^ 5 % 2 ^ 6) + 4 * field := by
    rw [slotAddr, extractLsb'_toNat_eq_div]
  rw [← eq_busReq_iff (by omega), ← BitVec.toNat_inj, ← BitVec.toNat_inj, and_slotMask_toNat, hfull, hbase,
    busReq_toNat we (by omega), busReq_toNat we (by omega)]
  split <;> omega

theorem rowMatches_slotRow_iff {field : Nat} (hf : field < 5) :
    rowMatches n req (slotRow we field op) = true ↔
      (reqWe req = we ∧ (reqAddr req).toNat = slotAddr (req.extractLsb' 5 6) (4 * field)) ∧
        (req.extractLsb' 5 6).toNat < n := by
  rw [rowMatches_iff, ← and_slotMask_eq_busReq_iff hf]
  simp only [slotRow, forall_const]

theorem and_frameMask_eq_busReq_iff :
    req &&& 0x1C003#17 = busReq we (frameAddr 0#12) ↔
      reqWe req = we ∧ (reqAddr req).toNat = frameAddr (req.extractLsb' 2 12) := by
  have hreq := req.isLt
  have hbase : frameAddr 0#12 = 0x4000 := rfl
  have hfull : frameAddr (req.extractLsb' 2 12) = 0x4000 + 4 * (req.toNat / 2 ^ 2 % 2 ^ 12) := by
    rw [frameAddr, extractLsb'_toNat_eq_div]
  rw [← eq_busReq_iff (by omega), ← BitVec.toNat_inj, ← BitVec.toNat_inj, and_frameMask_toNat, hfull, hbase,
    busReq_toNat we (by omega), busReq_toNat we (by omega)]
  split <;> omega

theorem rowMatches_frameRow_iff :
    rowMatches n req (frameRow we op) = true ↔
      reqWe req = we ∧ (reqAddr req).toNat = frameAddr (req.extractLsb' 2 12) := by
  rw [rowMatches_iff, ← and_frameMask_eq_busReq_iff]
  simp [frameRow]

end Rows

/-! ## The table and the decoder -/

/-- The table of a request: all rows, with the indices that the request names. -/
def busTable (req : BitVec 17) (w : Word) : List BusRow :=
  globalRows w ++ indexedRows (req.extractLsb' 5 6) (req.extractLsb' 2 12) w

theorem busOp_of_rowMatches {n : Nat} {req : BitVec 17} {w : Word} {row : BusRow}
    (hrow : row ∈ busTable req w) (h : rowMatches n req row = true) :
    BusOp n (reqWe req) w (reqAddr req).toNat row.op := by
  rw [busTable, List.mem_append, mem_globalRows_iff, mem_indexedRows_iff] at hrow
  obtain ⟨g, we, op, hop, rfl⟩ | ⟨field, we, op, hop, rfl⟩ | ⟨we, rfl⟩ := hrow
  · obtain ⟨rfl, haddr⟩ := (rowMatches_globalRow_iff (decodeGlobal_lt hop)).1 h
    exact haddr ▸ .global g hop
  · obtain ⟨⟨rfl, haddr⟩, hi⟩ := (rowMatches_slotRow_iff (decodeSlot_lt hop)).1 h
    exact haddr ▸ .slot _ field hi hop
  · obtain ⟨rfl, haddr⟩ := rowMatches_frameRow_iff.1 h
    exact haddr ▸ .frame _

theorem BusOp.exists_rowMatches {n : Nat} {req : BitVec 17} {w : Word} {op : Instr}
    (h : BusOp n (reqWe req) w (reqAddr req).toNat op) :
    ∃ row ∈ busTable req w, rowMatches n req row = true := by
  have hreq := reqAddr_toNat req
  simp only [busTable, List.mem_append, mem_globalRows_iff, mem_indexedRows_iff]
  generalize haddr : (reqAddr req).toNat = a at h
  cases h with
  | global g hop =>
    exact ⟨_, .inl ⟨g, _, _, hop, rfl⟩, (rowMatches_globalRow_iff (decodeGlobal_lt hop)).2 ⟨rfl, haddr⟩⟩
  | slot i field hi hop =>
    have hf := decodeSlot_lt hop
    obtain rfl : req.extractLsb' 5 6 = i := by
      have hi6 := i.isLt
      rw [slotAddr] at haddr
      rw [extractLsb'_eq_iff]
      omega
    exact ⟨_, .inr (.inl ⟨field, _, _, hop, rfl⟩), (rowMatches_slotRow_iff hf).2 ⟨⟨rfl, haddr⟩, hi⟩⟩
  | frame k =>
    obtain rfl : req.extractLsb' 2 12 = k := by
      have hk := k.isLt
      rw [frameAddr] at haddr
      rw [extractLsb'_eq_iff]
      omega
    exact ⟨_, .inr (.inr ⟨_, rfl⟩), rowMatches_frameRow_iff.2 ⟨rfl, haddr⟩⟩

/-- The first row that matches is the decoder's, and where none matches the decoder has none. -/
theorem find?_busTable_eq_decodeAddr (n : Nat) (req : BitVec 17) (w : Word) :
    ((busTable req w).find? (rowMatches n req)).map BusRow.op =
      decodeAddr n (reqWe req) (reqAddr req) w := by
  cases hfind : (busTable req w).find? (rowMatches n req) with
  | some row =>
    have hop := busOp_of_rowMatches (List.mem_of_find?_eq_some hfind) (List.find?_some hfind)
    exact (decodeAddr_eq_some_iff.2 hop).symm
  | none =>
    refine (Option.eq_none_iff_forall_ne_some.2 fun op hop => ?_).symm
    obtain ⟨row, hrow, hmatch⟩ := (decodeAddr_eq_some_iff.1 hop).exists_rowMatches
    exact List.find?_eq_none.1 hfind row hrow hmatch

theorem firstBusRow_eq (n : Nat) (req : BitVec 17) (w : Word) :
    firstBusRow n req w = (((busTable req w).find? (rowMatches n req)).map BusRow.op).getD
      (.busErr (reqWe req) (reqAddr req)) := by
  unfold firstBusRow
  dsimp only
  split
  next row hfind =>
    rw [show (busTable req w).find? (rowMatches n req) = some row from hfind]
    rfl
  next hfind =>
    rw [show (busTable req w).find? (rowMatches n req) = none from hfind]
    rfl

/-- Settles O2, by `find?_busTable_eq_decodeAddr`. -/
theorem decoderAgreesWithOpcodeTable : Obligations.DecoderAgreesWithOpcodeTable := by
  intro n req w
  rw [firstBusRow_eq, find?_busTable_eq_decodeAddr, decode, decodeBus]

end Sys2Proof.Machine
end

section
/-! PROOFS. 30_encoding.md R105 and R106 with 40_config_and_commands.md R127: a write to CMD is the command its
word decodes to. -/

namespace Sys2Proof.Machine

theorem execWrCmd_answers (w : Word) (s : State) :
    ∃ t, execWrCmd w s = .next t ∧ t.resp = .okayWrite ∧ t.agenda = s.agenda := by
  unfold execWrCmd cmdSelect
  repeat' split
  all_goals exact ⟨_, rfl, rfl, rfl⟩

/-- Settles O6: every write by `execWrCmd_eq`, the words of 4 and more by `decodeCmd_of_le`. -/
theorem commandWordRunsItsCommand : Obligations.CommandWordRunsItsCommand := by
  refine ⟨execWrCmd_eq _, execWrCmd_eq _, execWrCmd_eq _, execWrCmd_eq _, fun w s h => ?_,
    execWrCmd_answers, fun n w => (BusOp.global (we := true) 2 rfl).decode_eq,
    fun _ => ⟨rfl, rfl, rfl, rfl⟩, fun _ w => decodeCmd_of_le⟩
  exact (execWrCmd_eq w s).trans (by rw [decodeCmd_of_le h])

/-- Settles O7, each word by running the decoder. -/
theorem sampleWordsDecode : Obligations.SampleWordsDecode := by
  unfold Obligations.SampleWordsDecode
  decide

end Sys2Proof.Machine
end

section
/-! PROOFS. 40_config_and_commands.md R131 to R138: what a read answers. Each image is met as a number by its
lemma, STATUS also bit by bit. -/

namespace Sys2Proof.Machine

open Sys2Proof.Claims

/-- Settles O13, by the rows of the two registers and their definitions. -/
theorem idAndCmdReadConstants : Obligations.IdAndCmdReadConstants :=
  ⟨fun _ _ => ⟨rfl, rfl⟩, fun _ => ⟨rfl, rfl⟩⟩

/-! ## STATUS (R132; 10_state.md R22) -/

theorem statusImage_toNat (b : Block) :
    (statusImage b).toNat =
      128 * b.wign.toNat + 64 * b.cmdErr.toNat + 32 * b.sinkErr.toNat + 16 * b.cfgErr.toNat +
        b.seq.code.toNat := by
  have hbit : ∀ f : Bool, (bit f).toNat = f.toNat := BitVec.toNat_ofBool
  refine (toNat_concat (0#24 ++ bit b.wign ++ bit b.cmdErr ++ bit b.sinkErr ++ bit b.cfgErr ++ 0#2)
    b.seq.code).trans ?_
  simp only [toNat_concat, toNat_zero, hbit]
  omega

theorem getLsbD_of_toNat_div {m : Nat} {x : BitVec m} {k : Nat} {f : Bool}
    (h : x.toNat / 2 ^ k % 2 = f.toNat) : x.getLsbD k = f := by
  rw [BitVec.getLsbD, Nat.testBit_eq_decide_div_mod_eq, h]
  cases f <;> rfl

/-- Settles O14: the image as a number, and each field by its place in that number. -/
theorem statusReadsItsFields : Obligations.StatusReadsItsFields := by
  refine ⟨fun _ _ => rfl, fun s => ⟨statusImage s.block, rfl, ?_⟩⟩
  have himage := statusImage_toNat s.block
  have hseq := s.block.seq.code.isLt
  have hwign := s.block.wign.toNat_lt
  have hcmdErr := s.block.cmdErr.toNat_lt
  have hsinkErr := s.block.sinkErr.toNat_lt
  have hcfgErr := s.block.cfgErr.toNat_lt
  have hstate : (statusImage s.block).toNat % 4 = s.block.seq.code.toNat := by omega
  refine ⟨?_, getLsbD_of_toNat_div (show _ = 0 by omega), getLsbD_of_toNat_div (show _ = 0 by omega),
    getLsbD_of_toNat_div (by omega), getLsbD_of_toNat_div (by omega), getLsbD_of_toNat_div (by omega),
    getLsbD_of_toNat_div (by omega), by omega⟩
  rw [hstate]
  cases s.block.seq <;> rfl

/-! ## Configuration, counters and ERRINFO (R134, R135) -/

theorem Kind.code_toNat (k : Kind) : k.code.toNat = kindNumber k := by
  cases k <;> rfl

/-- Settles O15, by the images as numbers. -/
theorem configurationReadsItsImages : Obligations.ConfigurationReadsItsImages := by
  refine ⟨fun _ _ => ⟨rfl, rfl, rfl⟩, fun s => ⟨_, _, _, rfl, rfl, rfl, ?_, noscImage_toNat _,
    blklenImage_toNat _⟩⟩
  rw [chcfgImage_toNat, Kind.code_toNat, Kind.code_toNat]

/-- Settles O16, by the images as numbers; the codes of 60_exceptions.md R241 one by one. -/
theorem countersAndErrinfoReadTheirImages : Obligations.CountersAndErrinfoReadTheirImages := by
  refine ⟨fun _ _ => ⟨rfl, rfl, rfl⟩, fun s => ⟨_, _, rfl, rfl, rfl, framecntImage_toNat _, ?_⟩⟩
  rw [errinfoImage_toNat]
  congr 1
  cases s.block.errInfo.code <;> rfl

/-! ## Slots and the frame buffer (R136 to R138) -/

/-- Settles O17: the rows by `decode_slotReq`, the fields by `State.readSlot_some`. -/
theorem slotFieldsReadBack : Obligations.SlotFieldsReadBack := by
  refine ⟨fun n i w hi => ?_, fun s i sl hsl => ?_⟩
  · have hrow := fun offset => decode_slotReq 0#1 (offset := offset) w hi
    exact ⟨hrow _ rfl, hrow _ rfl, hrow _ rfl, hrow _ rfl, hrow _ rfl⟩
  · have hread := fun f => s.readSlot_some i f sl hsl
    refine ⟨hread _, hread _, hread _, ⟨_, hread _, ampImage_toNat sl⟩, ?_⟩
    rw [BitVec.ofInt_toInt]
    exact hread _

/-- Settles O18; the host and the sink read by the same `Block.readFrame`. -/
theorem bufferReadsLittleEndianWords : Obligations.BufferReadsLittleEndianWords :=
  ⟨fun n k w => ⟨decode_bufReq n 0#1 k w, rfl⟩,
    fun _ _ => ⟨_, rfl, rfl, fun j hj => readWord_byte _ _ j hj⟩⟩

end Sys2Proof.Machine
end

section
/-! PROOFS. 40_config_and_commands.md R121 to R126: the configuration writes. Each is a write through the gate
that reconfigures the block; the gate is then crossed once, for all seven. -/

namespace Sys2Proof.Machine

open Sys2Proof.Claims

/-! ## The gate (R121) -/

theorem exec_wrChcfg (w : Word) (s : State) : exec (.wrChcfg w) s =
    s.configWrite fun b => { b with lkind := wdataLkind w, rkind := wdataRkind w } := rfl

theorem exec_wrNosc (w : Word) (s : State) : exec (.wrNosc w) s =
    s.configWrite fun b => { b with nleft := wdataNleft w, nright := wdataNright w } := rfl

theorem exec_wrBlklen (w : Word) (s : State) : exec (.wrBlklen w) s =
    s.configWrite fun b => { b with len := wdataLen w } := rfl

theorem exec_configWrite_eq {i : Instr} {s : State} (hi : isConfigWrite i = true)
    (hwf : i.wf s.block.numOsc = true) :
    ∃ f, exec i s = s.configWrite f ∧ s.block.Reconfigured (f s.block) := by
  have hslot : ∀ {j : BitVec 6} (f : Slot → Slot), j.toNat < s.block.numOsc →
      (∀ sl, (f sl).phase = sl.phase) →
      ∃ g, s.writeSlot j f = s.configWrite g ∧ s.block.Reconfigured (g s.block) := by
    intro j f hj hphase
    obtain ⟨sl, hsl⟩ := Block.exists_slot? hj
    exact ⟨_, s.writeSlot_some j f sl hsl, s.block.reconfigured_setSlot j sl _ hsl (hphase sl)⟩
  cases i with
  | wrChcfg w => exact ⟨_, exec_wrChcfg w s, _, _, _, _, _, s.block.slots, rfl, rfl⟩
  | wrNosc w => exact ⟨_, exec_wrNosc w s, _, _, _, _, _, s.block.slots, rfl, rfl⟩
  | wrBlklen w => exact ⟨_, exec_wrBlklen w s, _, _, _, _, _, s.block.slots, rfl, rfl⟩
  | wrPinc | wrPinit | wrDuty | wrAmp => exact hslot _ (of_decide_eq_true hwf) fun _ => rfl
  | _ => cases hi

theorem exec_configWrite_outside_idle {i : Instr} {s : State} (hi : isConfigWrite i = true)
    (hwf : i.wf s.block.numOsc = true) (hs : s.block.seq ≠ .idle) :
    exec i s = .next { s with block := s.block.setWign, resp := .okayWrite } := by
  obtain ⟨f, hexec, -⟩ := exec_configWrite_eq hi hwf
  rw [hexec, s.configWrite_ignored f hs]

/-- Settles O21: both sides of the gate, for a write that reconfigures. -/
theorem configurationWriteGate : Obligations.ConfigurationWriteGate := by
  intro i s hi hwf
  refine ⟨exec_configWrite_outside_idle hi hwf, fun hs => ?_⟩
  obtain ⟨f, hexec, lk, rk, nl, nr, ln, slots, hblock, hphase⟩ := exec_configWrite_eq hi hwf
  refine ⟨_, hexec.trans (s.configWrite_idle f hs), rfl, rfl, ?_, ?_⟩
  · simp only [hblock]
  · simpa only [hblock] using hphase

/-! ## What is stored (R122 to R126) -/

theorem kindNumber_kindOfCode (c : BitVec 2) : kindNumber (kindOfCode c) = c.toNat := by
  rw [← Kind.code_toNat, Kind.code_kindOfCode]

theorem kindNumber_wdataLkind (w : Word) : kindNumber (wdataLkind w) = w.toNat % 4 := by
  rw [wdataLkind, kindNumber_kindOfCode, extractLsb'_toNat_eq_div, Nat.pow_zero, Nat.div_one]
  rfl

theorem kindNumber_wdataRkind (w : Word) : kindNumber (wdataRkind w) = w.toNat / 4 % 4 := by
  rw [wdataRkind, kindNumber_kindOfCode, extractLsb'_toNat_eq_div]
  rfl

theorem wdataNleft_toNat (w : Word) : (wdataNleft w).toNat = w.toNat % 128 := by
  rw [wdataNleft, extractLsb'_toNat_eq_div, Nat.pow_zero, Nat.div_one]
  rfl

theorem wdataNright_toNat (w : Word) : (wdataNright w).toNat = w.toNat / 256 % 128 := by
  rw [wdataNright, extractLsb'_toNat_eq_div]
  rfl

theorem wdataLen_toNat (w : Word) : (wdataLen w).toNat = w.toNat % 8192 := by
  rw [wdataLen, extractLsb'_toNat_eq_div, Nat.pow_zero, Nat.div_one]
  rfl

theorem wdataAmp_toNat (w : Word) : (wdataAmp w).toNat = w.toNat % 65536 := by
  rw [wdataAmp, extractLsb'_toNat_eq_div, Nat.pow_zero, Nat.div_one]
  rfl

/-- Settles O22: the fields of the write data as numbers, and the gate. -/
theorem globalConfigurationWrites : Obligations.GlobalConfigurationWrites := by
  refine ⟨fun _ _ => ⟨rfl, rfl, rfl⟩, fun s w => ⟨fun hs => ?_, fun hs => ?_⟩⟩
  · refine ⟨⟨_, _, kindNumber_wdataLkind w, kindNumber_wdataRkind w, ?_⟩,
      ⟨_, _, wdataNleft_toNat w, wdataNright_toNat w, ?_⟩, ⟨_, wdataLen_toNat w, ?_⟩⟩
    · rw [exec_wrChcfg, s.configWrite_idle _ hs]
    · rw [exec_wrNosc, s.configWrite_idle _ hs]
    · rw [exec_wrBlklen, s.configWrite_idle _ hs]
  · simp only [List.forall_mem_cons, List.not_mem_nil, false_implies, implies_true, and_true]
    have hignored := fun i hi hwf => exec_configWrite_outside_idle (i := i) (s := s) hi hwf hs
    exact ⟨hignored _ rfl rfl, hignored _ rfl rfl, hignored _ rfl rfl⟩

/-- Settles O23: the rows by `decode_slotReq`, the one slot by `State.writeSlot_idle`, and the gate. -/
theorem slotConfigurationWrites : Obligations.SlotConfigurationWrites := by
  refine ⟨fun n i w hi => ?_, fun s i w sl hsl => ⟨fun hs => ?_, fun hs => ?_⟩⟩
  · have hrow := fun offset => decode_slotReq 1#1 (offset := offset) w hi
    exact ⟨hrow _ rfl, hrow _ rfl, hrow _ rfl, hrow _ rfl⟩
  · have hwrite := fun f => s.writeSlot_idle f hs hsl
    exact ⟨hwrite _, hwrite _, hwrite _, _, wdataAmp_toNat w, hwrite _⟩
  · have hi : decide (i.toNat < s.block.numOsc) = true := decide_eq_true (Block.slot?_lt hsl)
    simp only [List.forall_mem_cons, List.not_mem_nil, false_implies, implies_true, and_true]
    have hignored := fun op hop hwf => exec_configWrite_outside_idle (i := op) (s := s) hop hwf hs
    exact ⟨hignored _ rfl hi, hignored _ rfl hi, hignored _ rfl hi, hignored _ rfl hi⟩

end Sys2Proof.Machine
end

section
/-! PROOFS. 40_config_and_commands.md R140 to R145: the commands, and what Validate reports, check by check. -/

namespace Sys2Proof.Machine

open Sys2Proof.Claims

/-- Settles O25; the reserved words by `decodeCmd_of_le`. -/
theorem nopClearAndReservedCommands : Obligations.NopClearAndReservedCommands :=
  ⟨fun _ => ⟨rfl, rfl, fun _ => decodeCmd_of_le⟩, fun _ => ⟨rfl, rfl, fun _ => rfl⟩⟩

/-! ## START (R141) -/

theorem exec_start (s : State) :
    exec .start s = .next { s with block := s.block.start, resp := .okayWrite } := rfl

theorem Block.phaseLoad_slots_getElem? {b : Block} {j : Nat} {sl : Slot} (h : b.slots[j]? = some sl) :
    b.phaseLoad.slots[j]? =
      some { sl with phase := if j < b.numActive then sl.pinit else 0#32 } := by
  obtain ⟨hj, rfl⟩ := List.getElem?_eq_some_iff.1 h
  exact List.getElem?_eq_some_iff.2 ⟨by simpa using hj, b.phaseLoad_slot j hj⟩

/-- Settles O26: the three cases of `Block.start`. -/
theorem startFollowsItsRule : Obligations.StartFollowsItsRule := by
  refine ⟨fun _ => rfl, fun s => ⟨fun hs => ?_, fun hs code osc hv => ?_, fun hs hv => ?_⟩⟩
  · rw [exec_start, s.block.start_outside_idle hs]
    rfl
  · rw [exec_start, s.block.start_rejected code osc hs hv]
    rfl
  · refine ⟨s.block.phaseLoad.slots, ?_, s.block.numOsc_phaseLoad,
      fun _ _ hsl => Block.phaseLoad_slots_getElem? hsl⟩
    rw [exec_start, s.block.start_accepted hs hv]
    rfl

/-! ## The checks of one slot (R145, codes 3 to 6) -/

theorem Slot.check_eq_none_iff_withinRanges (sl : Slot) : sl.check = none ↔ WithinRanges sl :=
  sl.check_eq_none_iff

section SlotChecks

variable {sl : Slot}

theorem Slot.check_eq_cfgPinc (hpinc : Config.pincMax < sl.pinc.toNat) : sl.check = some .cfgPinc :=
  if_pos hpinc

theorem Slot.check_eq_cfgAmp (hpinc : sl.pinc.toNat ≤ Config.pincMax)
    (hamp : Config.ampMax < sl.amp.toNat) : sl.check = some .cfgAmp := by
  rw [Slot.check, if_neg hpinc.not_gt, if_pos hamp]

theorem Slot.check_eq_cfgPinit (hpinc : sl.pinc.toNat ≤ Config.pincMax)
    (hamp : sl.amp.toNat ≤ Config.ampMax) (hpinit : sl.pinit = Config.pinitIllegal) :
    sl.check = some .cfgPinit := by
  rw [Slot.check, if_neg hpinc.not_gt, if_neg hamp.not_gt, if_pos hpinit]

theorem Slot.check_eq_cfgDuty (hpinc : sl.pinc.toNat ≤ Config.pincMax)
    (hamp : sl.amp.toNat ≤ Config.ampMax) (hpinit : sl.pinit ≠ Config.pinitIllegal)
    (hduty : Config.dutyMax < sl.duty.toNat) : sl.check = some .cfgDuty := by
  rw [Slot.check, if_neg hpinc.not_gt, if_neg hamp.not_gt, if_neg hpinit, if_pos hduty]

/-- No failing check has code 0. -/
theorem Slot.check_ne_some_none : sl.check ≠ some .none := by
  unfold Slot.check
  split_ifs <;> nofun

end SlotChecks

/-! ## Validate (R145) -/

section Validate

variable {b : Block}

theorem Block.validate_eq_cfgNosc (h : b.numOsc < b.numActive) : b.validate = some (.cfgNosc, 0#6) :=
  if_pos h

theorem Block.validate_eq_cfgBlklen (hosc : b.numActive ≤ b.numOsc)
    (hlen : b.len.toNat < 1 ∨ Config.bufFrames < b.len.toNat) :
    b.validate = some (.cfgBlklen, 0#6) := by
  rw [Block.validate, if_neg hosc.not_gt, if_pos hlen]

theorem Block.validate_eq_firstFailing (hosc : b.numActive ≤ b.numOsc) (hmin : 1 ≤ b.len.toNat)
    (hmax : b.len.toNat ≤ Config.bufFrames) : b.validate = firstFailing 0 b.activeSlots := by
  rw [Block.validate, if_neg hosc.not_gt, if_neg (not_or.2 ⟨hmin.not_gt, hmax.not_gt⟩)]

/-- With both global checks passed, Validate reports the first active slot that fails. -/
theorem Block.validate_eq_slot (hnum : b.numOsc ≤ Config.numOscMax) (hosc : b.numActive ≤ b.numOsc)
    (hmin : 1 ≤ b.len.toNat) (hmax : b.len.toNat ≤ Config.bufFrames) {j : Nat} {sl : Slot}
    (hj : j < b.numActive) (hsl : b.slots[j]? = some sl)
    (hbefore : ∀ (k : Nat) (e : Slot), k < j → b.slots[k]? = some e → e.check = none)
    {code : ErrCode} (hcode : sl.check = some code) :
    ∃ o : BitVec 6, o.toNat = j ∧ b.validate = some (code, o) := by
  obtain ⟨hlt, rfl⟩ := List.getElem?_eq_some_iff.1 hsl
  refine ⟨BitVec.ofNat 6 j, ?_, ?_⟩
  · exact Nat.mod_eq_of_lt (hlt.trans_le hnum)
  · rw [Block.validate_eq_firstFailing hosc hmin hmax, firstFailing_eq_some_iff]
    refine ⟨j, ?_, by rw [Nat.zero_add], ?_, fun k hk => ?_⟩
    · exact List.length_take ▸ lt_min hj hlt
    · simpa only [Block.activeSlots, List.getElem_take] using hcode
    · refine hbefore k _ hk ?_
      simp only [Block.activeSlots, List.getElem_take, List.getElem?_eq_getElem (hk.trans hlt)]

theorem Block.validate_code_ne_none {code : ErrCode} {osc : BitVec 6}
    (h : b.validate = some (code, osc)) : code ≠ .none := by
  rintro rfl
  unfold Block.validate at h
  split at h
  · cases h
  · split at h
    · cases h
    · obtain ⟨_, _, -, hcheck, -⟩ := (firstFailing_eq_some_iff _ _ _ _).1 h
      exact Slot.check_ne_some_none hcheck

/-- A block passes when its slots do, by index. -/
theorem Block.validate_eq_none (hosc : b.numActive ≤ b.numOsc) (hmin : 1 ≤ b.len.toNat)
    (hmax : b.len.toNat ≤ Config.bufFrames)
    (hslots : ∀ (j : Nat) (sl : Slot), j < b.numActive → b.slots[j]? = some sl → WithinRanges sl) :
    b.validate = none := by
  refine b.validate_eq_none_iff.2 ⟨hosc, hmin, hmax, fun sl hsl => ?_⟩
  obtain ⟨j, hlt, hj, rfl⟩ := (b.mem_activeSlots sl).1 hsl
  exact hslots j _ hj (List.getElem?_eq_getElem hlt)

theorem Block.validate_eq_none_iff_passesChecks : b.validate = none ↔ PassesChecks b :=
  b.validate_eq_none_iff

end Validate

/-- Settles O27: the two global checks, then the first failing slot under the code of its check. -/
theorem validateReportsTheFirstFailingCheck : Obligations.ValidateReportsTheFirstFailingCheck := by
  intro b hnum
  refine ⟨Block.validate_eq_cfgNosc, fun hosc => ⟨Block.validate_eq_cfgBlklen hosc, fun hmin hmax => ⟨?_,
    Block.validate_eq_none hosc hmin hmax⟩⟩⟩
  intro j sl hj hsl hbefore
  have hreport : ∀ {code : ErrCode}, sl.check = some code →
      ∃ o : BitVec 6, o.toNat = j ∧ b.validate = some (code, o) :=
    Block.validate_eq_slot hnum hosc hmin hmax hj hsl fun k e hk he =>
      e.check_eq_none_iff_withinRanges.2 (hbefore k e hk he)
  exact ⟨fun hpinc => hreport (Slot.check_eq_cfgPinc hpinc),
    fun hpinc hamp => hreport (Slot.check_eq_cfgAmp hpinc hamp),
    fun hpinc hamp hpinit => hreport (Slot.check_eq_cfgPinit hpinc hamp hpinit),
    fun hpinc hamp hpinit hduty => hreport (Slot.check_eq_cfgDuty hpinc hamp hpinit hduty)⟩

/-- Settles O28: what START validates is what R145 asks, so it is accepted or rejected accordingly. -/
theorem startRunsExactlyLegalConfigurations : Obligations.StartRunsExactlyLegalConfigurations := by
  intro s hs
  refine ⟨fun hpass => ⟨_, exec_start s, ?_⟩, fun hfail => ⟨_, exec_start s, ?_⟩⟩
  · dsimp only
    rw [s.block.start_accepted hs (Block.validate_eq_none_iff_passesChecks.2 hpass)]
    exact ⟨rfl, rfl, rfl⟩
  · rw [← Block.validate_eq_none_iff_passesChecks] at hfail
    obtain ⟨⟨code, osc⟩, hv⟩ := Option.ne_none_iff_exists'.1 hfail
    dsimp only
    rw [s.block.start_rejected code osc hs hv]
    exact ⟨rfl, rfl, Block.validate_code_ne_none hv⟩

end Sys2Proof.Machine
end

section
/-! PROOFS. 41_phase_bank.md R162 to R169: one tick as an integer, n ticks in closed form, and the period. -/

namespace Sys2Proof.Machine

open Sys2Proof.Claims

/-! ## One tick (R162 to R164) -/

/-- R164: with an increment that is not negative the addition of R162 is never taken. -/
theorem advance_of_nonneg {v inc : Int} (hv : -2147483648 < v) (hinc : 0 ≤ inc) :
    advance v inc = if 2147483648 ≤ v + inc then v + inc - 2147483648 else v + inc := by
  have hlow : ¬ v + inc ≤ -Config.turn := by
    simp only [Config.turn]
    omega
  simp only [advance, if_neg hlow, Config.turn]

/-- Settles O42: the range by `advance_range`, the correction by `advance_of_nonneg`. -/
theorem advanceStaysInRange : Obligations.AdvanceStaysInRange := by
  intro v inc hlo hhi hinc hmax
  obtain ⟨hlo', hhi'⟩ := advance_range v inc hlo hhi hinc hmax
  have hcorrection : advance v inc = v + inc ∨ advance v inc = v + inc - 2147483648 := by
    rw [advance_of_nonneg hlo hinc]
    split
    · exact .inr rfl
    · exact .inl rfl
  exact ⟨by omega, hlo', hhi', hcorrection, by omega⟩

/-! ## The closed form (R165, R168) -/

theorem phaseAt_zero {v : Int} (inc : Int) (hv : v < 2147483648) : phaseAt v inc 0 = v := by
  simp only [phaseAt, Nat.cast_zero, zero_mul, add_zero]
  split
  · rfl
  · exact Int.emod_eq_of_lt (by omega) hv

/-- A tick of the phase of frame `n` is the phase of frame `n + 1`: below 0 the plain sum moves on, and a
sum that has reached 0 is advanced modulo P. -/
theorem advance_phaseAt {v inc : Int} (n : Nat) (hlo : -2147483648 < v) (hinc : 0 ≤ inc)
    (hmax : inc ≤ 1073741824) : advance (phaseAt v inc n) inc = phaseAt v inc (n + 1) := by
  have hmoved : 0 ≤ n * inc := mul_nonneg (Int.natCast_nonneg n) hinc
  have hsucc : v + ↑(n + 1) * inc = v + n * inc + inc := by
    push_cast
    ring
  have hrange : -2147483648 < phaseAt v inc n := by
    simp only [phaseAt]
    split <;> omega
  rw [advance_of_nonneg hrange hinc]
  simp only [phaseAt, hsucc]
  by_cases hneg : v + n * inc < 0
  · simp only [if_pos hneg, if_neg (show ¬ 2147483648 ≤ v + n * inc + inc by omega)]
    split <;> omega
  · simp only [if_neg hneg, if_neg (show ¬ v + n * inc + inc < 0 by omega)]
    split <;> omega

/-- Settles O43, by induction on the number of ticks. -/
theorem phaseClosedForm : Obligations.PhaseClosedForm := by
  intro v inc n hlo hhi hinc hmax
  induction n with
  | zero => exact (phaseAt_zero inc hhi).symm
  | succ n ih => rw [Function.iterate_succ_apply', ih, advance_phaseAt n hlo hinc hmax]

/-! ## The period (R169) -/

/-- A phase in [0, P) is met again exactly when the ticks have moved it by whole turns. -/
theorem phaseAt_eq_self_iff {v : Int} (inc m : Nat) (hlo : 0 ≤ v) (hhi : v < 2147483648) :
    phaseAt v inc m = v ↔ 2147483648 ∣ inc * m := by
  have hcast : (m : Int) * inc = ↑(inc * m) := by
    push_cast
    ring
  simp only [phaseAt, hcast]
  rw [if_neg (by omega)]
  omega

/-- Settles O44: whole turns, as P divides inc·m exactly when P / gcd(P, inc) divides m. -/
theorem phaseIsPeriodic : Obligations.PhaseIsPeriodic := by
  intro v inc hlo hhi hpos hmax m
  have hgcd : 0 < Nat.gcd 2147483648 inc := Nat.gcd_pos_of_pos_right _ hpos
  calc (fun p => advance p inc)^[m] v = v
      ↔ phaseAt v inc m = v := by
        rw [phaseClosedForm v inc m (by omega) hhi (by omega) (by omega)]
    _ ↔ 2147483648 ∣ inc * m := phaseAt_eq_self_iff inc m hlo hhi
    _ ↔ 2147483648 ∣ Nat.gcd 2147483648 inc * m := Nat.dvd_gcd_mul_iff_dvd_mul.symm
    _ ↔ 2147483648 / Nat.gcd 2147483648 inc ∣ m :=
        (Nat.div_dvd_iff_dvd_mul (Nat.gcd_dvd_left _ _) hgcd).symm

end Sys2Proof.Machine
end

section
/-! PROOFS. 43_mixer_sequencer.md R210 to R214: one FRAME_STEP, field by field: the frame word it writes, the
slots it ticks, and its count. -/

namespace Sys2Proof.Machine

open Sys2Proof.Claims

/-! ## A turn of SEQ (R214; log 2) -/

theorem State.seqTurn_of_not_fill {s : State} (h : s.block.seq ≠ .fill) :
    s.seqTurn = .next { s with resp := .none } := by
  simp only [State.seqTurn, if_neg h, State.finish_eq]

theorem State.seqTurn_of_fill {s : State} (h : s.block.seq = .fill) (hk : s.block.frameCnt.toNat < 4096) :
    s.seqTurn = .next { s with block := s.block.frameStep, resp := .none } := by
  simp only [State.seqTurn, if_pos h, State.frameStep, Config.bufFrames, if_pos hk, State.finish_eq]

/-! ## The frame word (R211 to R213) -/

theorem clamp_eq_max_min {lo hi : Int} (x : Int) (h : lo ≤ hi) : clamp x lo hi = max lo (min hi x) := by
  rw [clamp]
  split
  · omega
  · split <;> omega

theorem narrow_eq_max_min (sum : Int) : narrow sum = max (-32768) (min 32767 (Int.tdiv sum 32768)) :=
  clamp_eq_max_min _ (by decide)

/-- A narrowed sum is what its 16-bit pattern stands for. -/
theorem toInt_bits16_narrow (sum : Int) :
    (bits16 (narrow sum)).toInt = max (-32768) (min 32767 (Int.tdiv sum 32768)) := by
  rw [narrow_eq_max_min, toInt_bits16 _ (by omega) (by omega)]

section FrameStep

variable {b : Block}

theorem Block.frameStep_readFrame :
    b.frameStep.readFrame b.frameCnt.toNat = frameWord b.leftSample b.rightSample :=
  Memory.readWord_writeWord_same _ _ _

theorem Block.frameStep_readFrame_low :
    ((b.frameStep.readFrame b.frameCnt.toNat).extractLsb' 0 16).toInt =
      max (-32768) (min 32767 (Int.tdiv (channelSum b.lkind b.leftSlots) 32768)) := by
  rw [Block.frameStep_readFrame, frameWord_low]
  exact toInt_bits16_narrow _

theorem Block.frameStep_readFrame_high :
    ((b.frameStep.readFrame b.frameCnt.toNat).extractLsb' 16 16).toInt =
      max (-32768) (min 32767 (Int.tdiv (channelSum b.rkind b.rightSlots) 32768)) := by
  rw [Block.frameStep_readFrame, frameWord_high]
  exact toInt_bits16_narrow _

theorem Block.frameStep_readByte_outside {a : Nat}
    (ha : a < bufAddr b.frameCnt.toNat ∨ bufAddr b.frameCnt.toNat + 4 ≤ a) :
    b.frameStep.buf.readByte a = b.buf.readByte a := by
  by_contra hne
  have hin := Block.frameStep_readByte_ne hne
  omega

/-! ## The slots (R162) -/

theorem Block.frameStep_slots_getElem? {j : Nat} {sl : Slot} (h : b.slots[j]? = some sl) :
    b.frameStep.slots[j]? = some (if j < b.numActive then sl.tick else sl) := by
  obtain ⟨hj, rfl⟩ := List.getElem?_eq_some_iff.1 h
  exact List.getElem?_eq_some_iff.2 ⟨by simpa using hj, b.frameStep_slot j hj⟩

theorem Block.frameStep_inactive {j : Nat} {sl : Slot} (h : b.slots[j]? = some sl) (hj : b.numActive ≤ j) :
    b.frameStep.slots[j]? = some sl := by
  rw [Block.frameStep_slots_getElem? h, if_neg (Nat.not_lt.2 hj)]

/-- The tick of an active slot changes its phase alone, by the sum and its one correction. -/
theorem Block.frameStep_active {j : Nat} {sl : Slot} (h : b.slots[j]? = some sl) (hj : j < b.numActive) :
    ∃ sl', b.frameStep.slots[j]? = some sl' ∧ sl' = { sl with phase := sl'.phase } ∧
      (sl.pinc.toNat ≤ 2 ^ 30 → sl.phase ≠ 0x80000000#32 →
        sl'.phase.toInt = wrapped (sl.phase.toInt + sl.pinc.toNat)) :=
  ⟨sl.tick, by rw [Block.frameStep_slots_getElem? h, if_pos hj], rfl, fun hpinc hne => sl.tick_s32 hne hpinc⟩

/-! ## The count (R214) -/

theorem Block.frameStep_frameCnt_toNat (hk : b.frameCnt.toNat < 4096) :
    b.frameStep.frameCnt.toNat = b.frameCnt.toNat + 1 := by
  rw [b.frameStep_frameCnt]
  bv_omega

theorem Block.frameStep_seq_of_fill (hs : b.seq = .fill) (hk : b.frameCnt.toNat < 4096) :
    b.frameStep.seq = if b.frameCnt.toNat + 1 = b.len.toNat then .drain else .fill := by
  simp only [← Block.frameStep_frameCnt_toNat hk, BitVec.toNat_inj]
  rw [b.frameStep_seq, b.frameStep_frameCnt, hs]

end FrameStep

/-- Settles O33: a wait outside FILL, and FRAME_STEP field by field in FILL. -/
theorem frameStepFollowsItsRule : Obligations.FrameStepFollowsItsRule := by
  refine ⟨fun s hs => ⟨_, State.seqTurn_of_not_fill hs, rfl⟩, fun s hs hk => ?_⟩
  exact ⟨_, State.seqTurn_of_fill hs hk, Block.frameStep_readFrame_low, Block.frameStep_readFrame_high,
    fun _ => Block.frameStep_readByte_outside, s.block.numOsc_frameStep,
    fun _ _ hsl => ⟨Block.frameStep_inactive hsl, Block.frameStep_active hsl⟩,
    Block.frameStep_frameCnt_toNat hk, Block.frameStep_seq_of_fill hs hk, rfl⟩

end Sys2Proof.Machine
end

section
/-! PROOFS. 42_waveform.md R182 to R184: the sine look-up, from the table through the folding of an index onto
the quarter wave to the phase. -/

namespace Sys2Proof.Machine

open Sys2Proof.Claims

/-! ## The table (R184) -/

theorem quarterWave_eq_printedTable : quarterWave = printedTable := by
  simp only [quarterWave, quarterWave0, quarterWave64, quarterWave128, quarterWave192, printedTable,
    List.append_assoc]

/-! A fact about all 257 entries is decided part by part: over the appended lists, not over the whole. -/

theorem quarterWave_length : quarterWave.length = 257 := by
  simp only [quarterWave, List.length_append]
  decide

theorem quarterWave_isChain_lt : quarterWave.IsChain (· < ·) := by
  simp only [quarterWave, quarterWave0, quarterWave64, quarterWave128, quarterWave192, List.isChain_append]
  decide

theorem quarterWave_range : ∀ x ∈ quarterWave, 0 ≤ x ∧ x ≤ 32768 := by
  simp only [quarterWave, List.forall_mem_append]
  decide

theorem quarterWave_sum : quarterWave.sum = 5356720 := by
  simp only [quarterWave, List.sum_append]
  decide

theorem quarterSine_eq_getElem {k : Nat} (hk : k < quarterWave.length) : quarterSine k = quarterWave[k] :=
  List.getD_eq_getElem _ _ hk

theorem quarterSine_eq_printedQ (k : Nat) : quarterSine k = printedQ k := by
  rw [quarterSine, quarterWave_eq_printedTable]
  rfl

theorem quarterSine_lt_succ {k : Nat} (hk : k < 256) : quarterSine k < quarterSine (k + 1) := by
  have hlt : k + 1 < quarterWave.length := by
    rw [quarterWave_length]
    omega
  rw [quarterSine_eq_getElem hlt, quarterSine_eq_getElem (Nat.lt_of_succ_lt hlt)]
  exact List.isChain_iff_getElem.1 quarterWave_isChain_lt k hlt

theorem quarterSine_range (k : Nat) : 0 ≤ quarterSine k ∧ quarterSine k ≤ 32768 := by
  by_cases hk : k < quarterWave.length
  · rw [quarterSine_eq_getElem hk]
    exact quarterWave_range _ (List.getElem_mem hk)
  · rw [quarterSine, List.getD_eq_default _ _ (Nat.le_of_not_lt hk)]
    exact ⟨le_rfl, by decide⟩

theorem map_quarterSine_range : (List.range 257).map quarterSine = quarterWave :=
  List.ext_getElem (by rw [List.length_map, List.length_range, quarterWave_length]) fun k _ hk => by
    rw [List.getElem_map, List.getElem_range, quarterSine_eq_getElem hk]

/-! ## The folding onto the quarter wave (R183) -/

theorem foldedSine_rising {k : Nat} (hk : k ≤ 256) : foldedSine k = quarterSine k := by
  obtain hlt | rfl := Nat.lt_or_eq_of_le hk
  · rw [foldedSine, if_pos (Nat.div_eq_of_lt hlt), Nat.mod_eq_of_lt hlt]
  · rfl

theorem foldedSine_falling {k : Nat} (hk : k ≤ 256) : foldedSine (512 - k) = quarterSine k := by
  obtain rfl | hpos := Nat.eq_zero_or_pos k
  · decide
  · have hq : (512 - k) / 256 = 1 := by omega
    have hk' : 256 - (512 - k) % 256 = k := by omega
    rw [foldedSine, hq, hk', if_neg Nat.one_ne_zero, if_pos rfl]

theorem foldedSine_add_half {i : Nat} (hi : i < 512) : foldedSine (i + 512) = -foldedSine i := by
  have hk : (i + 512) % 256 = i % 256 := by omega
  obtain hq | hq : i / 256 = 0 ∨ i / 256 = 1 := by omega
  · have hq' : (i + 512) / 256 = 2 := by omega
    simp [foldedSine, hk, hq, hq']
  · have hq' : (i + 512) / 256 = 3 := by omega
    simp [foldedSine, hk, hq, hq']

theorem foldedSine_mirror {k : Nat} (hk : k ≤ 512) : foldedSine (512 - k) = foldedSine k := by
  obtain hle | hge := Nat.le_total k 256
  · rw [foldedSine_falling hle, foldedSine_rising hle]
  · have hle : 512 - k ≤ 256 := by omega
    rw [foldedSine_rising hle, ← foldedSine_falling hle, Nat.sub_sub_self hk]

theorem abs_foldedSine_le (i : Nat) : |foldedSine i| ≤ 32768 := by
  have hQ : ∀ k, |quarterSine k| ≤ 32768 := fun k => by
    obtain ⟨hlo, hhi⟩ := quarterSine_range k
    rwa [abs_of_nonneg hlo]
  simp only [foldedSine]
  split_ifs <;> simp only [abs_neg, hQ]

/-- The folding over the integers, as the quadrant formula reads. -/
theorem foldedSine_eq_printedQ (i : Nat) :
    foldedSine i =
      if (i : Int) / 256 = 0 then printedQ (i % 256)
      else if (i : Int) / 256 = 1 then printedQ (256 - i % 256)
      else if (i : Int) / 256 = 2 then -printedQ (i % 256)
      else -printedQ (256 - i % 256) := by
  have hk : ((i % 256 : Nat) : Int) = i % 256 := rfl
  have hk' : ((256 - i % 256 : Nat) : Int) = 256 - i % 256 := by omega
  have hq : ∀ q : Nat, i / 256 = q ↔ (i : Int) / 256 = q := fun q => by omega
  simp only [foldedSine, quarterSine_eq_printedQ, hk, hk', hq]
  rfl

/-! ## The phase (R183) -/

theorem sineIndex_cast (v : Int) : (sineIndex v : Int) = v % 2147483648 / 2097152 :=
  Int.toNat_of_nonneg (Int.ediv_nonneg (Int.emod_nonneg v (by decide)) (by decide))

theorem sineIndex_lt (v : Int) : sineIndex v < 1024 := by
  have hv := sineIndex_cast v
  omega

theorem sineIndex_eq_iff {v : Int} {i : Nat} : sineIndex v = i ↔ v % 2147483648 / 2097152 = i := by
  rw [← sineIndex_cast, Nat.cast_inj]

theorem sinLut_eq_foldedSine {v : Int} {i : Nat} (h : v % 2147483648 / 2097152 = i) :
    sinLut v = foldedSine i := by
  rw [sinLut, sineIndex_eq_iff.2 h]

theorem sinLut_tablePoint {k : Nat} (hk : k < 1024) : sinLut (k * 2097152) = foldedSine k :=
  sinLut_eq_foldedSine (by omega)

theorem abs_sinLut_le (v : Int) : |sinLut v| ≤ 32768 :=
  abs_foldedSine_le _

theorem sinLut_congr {v w : Int} (h : v % 2147483648 / 2097152 = w % 2147483648 / 2097152) :
    sinLut v = sinLut w :=
  sinLut_eq_foldedSine (h.trans (sineIndex_cast w).symm)

theorem sinLut_add_half (v : Int) : sinLut (v + 1073741824) = -sinLut v := by
  have hv := sineIndex_cast v
  obtain hlt | hge := Nat.lt_or_ge (sineIndex v) 512
  · rw [sinLut_eq_foldedSine (i := sineIndex v + 512) (by omega), foldedSine_add_half hlt, sinLut]
  · obtain ⟨i, hi⟩ := Nat.exists_eq_add_of_le' hge
    rw [sinLut_eq_foldedSine (v := v) (i := i + 512) (by omega), foldedSine_add_half (by omega), neg_neg]
    exact sinLut_eq_foldedSine (by omega)

theorem sinLut_mirror {k : Nat} (hk : k ≤ 512) :
    sinLut ((512 - k) * 2097152) = sinLut (k * 2097152) := by
  rw [show (512 : Int) - k = ↑(512 - k) by omega, sinLut_tablePoint (by omega), sinLut_tablePoint (by omega),
    foldedSine_mirror hk]

theorem sum_sinLut_firstQuarter :
    ((List.range 257).map fun k : Nat => sinLut (k * 2097152)).sum = 5356720 := by
  have hmap : ((List.range 257).map fun k : Nat => sinLut (k * 2097152)) = quarterWave := by
    rw [← map_quarterSine_range]
    refine List.map_congr_left fun k hk => ?_
    have hlt : k < 257 := List.mem_range.1 hk
    rw [sinLut_tablePoint (by omega), foldedSine_rising (by omega)]
  rw [hmap, quarterWave_sum]

/-- Settles O37: the folding of `sineIndex` for the quadrant formula, the symmetries from those of the folding. -/
theorem sineLookupSymmetries : Obligations.SineLookupSymmetries := by
  refine ⟨fun _ _ _ => rfl, fun v => ?_, fun v => ?_,
    fun k hk => sinLut_mirror hk, fun k hk => ?_, sum_sinLut_firstQuarter, by decide⟩
  · rw [← sineIndex_cast v]
    have hlt : sineIndex v < 1024 := sineIndex_lt v
    exact ⟨by omega, by omega, foldedSine_eq_printedQ _⟩
  · obtain ⟨hlo, hhi⟩ := abs_le.1 (abs_sinLut_le v)
    exact ⟨sinLut_congr (by omega), sinLut_add_half v, hlo, hhi, sinLut_congr (by omega)⟩
  · rw [← Nat.cast_succ, sinLut_tablePoint (by omega), sinLut_tablePoint (by omega),
      foldedSine_rising (by omega), foldedSine_rising (by omega)]
    exact quarterSine_lt_succ hk

end Sys2Proof.Machine
end

section
/-! PROOFS. 42_waveform.md R187 to R191: the formulas of SQUARE and TRIANGLE, the ranges of every kind, and the
continuity of TRIANGLE. Each branch of TRIANGLE is a division toward zero of a dividend that moves by
2·A·2^15 from one phase to the next. -/

namespace Sys2Proof.Machine

/-! ## Division toward zero of a ramp -/

theorem add_ediv_le {n : Int} (hn : 0 < n) (x y : Int) : (x + y) / n ≤ x / n + y / n + 1 := by
  rw [Int.add_ediv_of_pos hn]
  split <;> omega

theorem ediv_le_ediv_of_divisor_le {x m n : Int} (hx : 0 ≤ x) (hm : 0 < m) (hmn : m ≤ n) :
    x / n ≤ x / m := by
  have hn : 0 < n := hm.trans_le hmn
  refine Int.le_ediv_of_mul_le hm ?_
  calc x / n * m ≤ x / n * n := mul_le_mul_of_nonneg_left hmn (Int.ediv_nonneg hx hn.le)
    _ ≤ x := Int.ediv_mul_le x hn.ne'

theorem tdiv_of_neg {x : Int} (n : Int) (hx : x < 0) : x.tdiv n = -(-x / n) := by
  rw [← Int.tdiv_eq_ediv_of_nonneg (by omega), Int.neg_tdiv, neg_neg]

theorem tdiv_add_le {n : Int} (hn : 0 < n) (x : Int) {y : Int} (hy : 0 ≤ y) :
    (x + y).tdiv n ≤ x.tdiv n + y / n + 1 := by
  obtain hx | hx := lt_or_ge x 0
  · rw [tdiv_of_neg n hx]
    obtain hxy | hxy := lt_or_ge (x + y) 0
    · rw [tdiv_of_neg n hxy]
      have h := add_ediv_le hn (-(x + y)) y
      rw [show -(x + y) + y = -x by ring] at h
      omega
    · rw [Int.tdiv_eq_ediv_of_nonneg hxy]
      have h := Int.ediv_add_ediv_le_add_ediv (x := x + y) (y := -x) hn
      rw [add_neg_cancel_comm] at h
      omega
  · rw [Int.tdiv_eq_ediv_of_nonneg hx, Int.tdiv_eq_ediv_of_nonneg (by omega)]
    exact add_ediv_le hn x y

/-- A dividend that rises by `y` moves the quotient by at most `y / n + 1`. -/
theorem abs_tdiv_add_sub_tdiv_le {n : Int} (hn : 0 < n) (x : Int) {y : Int} (hy : 0 ≤ y) :
    |(x + y).tdiv n - x.tdiv n| ≤ y / n + 1 := by
  have hup := tdiv_add_le hn x hy
  have hmono : x.tdiv n ≤ (x + y).tdiv n := Int.tdiv_le_tdiv hn (by omega)
  rw [abs_of_nonneg (by omega)]
  omega

theorem abs_mul_tdiv_le {m x n : Int} (hn : 0 < n) (hm : 0 ≤ m) (hx : |x| ≤ n) :
    |(m * x).tdiv n| ≤ m := by
  obtain ⟨hlo, hhi⟩ := abs_le.1 hx
  have hmax : (m * n).tdiv n = m := Int.mul_tdiv_cancel m hn.ne'
  refine abs_le.2 ⟨?_, ?_⟩
  · calc -m = (m * -n).tdiv n := by rw [mul_neg, Int.neg_tdiv, hmax]
      _ ≤ (m * x).tdiv n := Int.tdiv_le_tdiv hn (mul_le_mul_of_nonneg_left hlo hm)
  · calc (m * x).tdiv n ≤ (m * n).tdiv n := Int.tdiv_le_tdiv hn (mul_le_mul_of_nonneg_left hhi hm)
      _ = m := hmax

/-! ## The kinds, case by case (R187, R188) -/

section Formulas

variable {v d a : Int}

theorem eval_square_of_lt (h : v < d) : eval .square v d a = a * 32768 := if_pos h

theorem eval_square_of_le (h : d ≤ v) : eval .square v d a = -(a * 32768) := if_neg h.not_gt

theorem eval_square_eq_iff (ha : 0 < a) : eval .square v d a = a * 32768 ↔ v < d := by
  refine ⟨fun h => ?_, eval_square_of_lt⟩
  by_contra hle
  rw [eval_square_of_le (not_lt.1 hle)] at h
  omega

theorem clampedDuty_eq_max_min (d : Int) : clampedDuty d = max 1 (min d 2147483647) := by
  rw [min_comm]
  exact clamp_eq_max_min d (by decide)

theorem clampedDuty_range (d : Int) : 1 ≤ clampedDuty d ∧ clampedDuty d < 2147483648 := by
  rw [clampedDuty_eq_max_min]
  omega

/-- R188 before the peak. -/
theorem eval_triangle_of_lt (h : v < clampedDuty d) :
    eval .triangle v d a = (a * 32768 * (2 * v - clampedDuty d)).tdiv (clampedDuty d) := if_pos h

/-- R188 from the peak on. -/
theorem eval_triangle_of_ge (h : clampedDuty d ≤ v) :
    eval .triangle v d a =
      (a * 32768 * (2147483648 + clampedDuty d - 2 * v)).tdiv (2147483648 - clampedDuty d) :=
  if_neg h.not_gt

theorem eval_triangle_zero : eval .triangle 0 d a = -(a * 32768) := by
  have hpos := (clampedDuty_range d).1
  rw [eval_triangle_of_lt (by omega), mul_zero, zero_sub, mul_neg, Int.neg_tdiv,
    Int.mul_tdiv_cancel _ (by omega)]

theorem eval_triangle_peak : eval .triangle (clampedDuty d) d a = a * 32768 := by
  have hlt := (clampedDuty_range d).2
  rw [eval_triangle_of_ge le_rfl,
    show 2147483648 + clampedDuty d - 2 * clampedDuty d = 2147483648 - clampedDuty d by ring,
    Int.mul_tdiv_cancel _ (by omega)]

/-- The formula of the falling branch ends where the next turn begins. -/
theorem eval_triangle_turn : eval .triangle 2147483648 d a = eval .triangle 0 d a := by
  have hlt := (clampedDuty_range d).2
  rw [eval_triangle_zero, eval_triangle_of_ge hlt.le,
    show 2147483648 + clampedDuty d - 2 * 2147483648 = -(2147483648 - clampedDuty d) by ring,
    mul_neg, Int.neg_tdiv, Int.mul_tdiv_cancel _ (by omega)]

/-- At the peak both branches of R188 agree, so the rising formula holds up to it. -/
theorem eval_triangle_of_le (h : v ≤ clampedDuty d) :
    eval .triangle v d a = (a * 32768 * (2 * v - clampedDuty d)).tdiv (clampedDuty d) := by
  obtain hlt | rfl := h.lt_or_eq
  · exact eval_triangle_of_lt hlt
  · have hpos := (clampedDuty_range d).1
    rw [eval_triangle_peak, show 2 * clampedDuty d - clampedDuty d = clampedDuty d by ring,
      Int.mul_tdiv_cancel _ (by omega)]

end Formulas

/-- Settles O36: one equation per branch. -/
theorem squareTriangleAndSilentFormulas : Obligations.SquareTriangleAndSilentFormulas := by
  intro v d a
  simp only [Int.reducePow, Int.reduceSub, ← clampedDuty_eq_max_min]
  exact ⟨eval_square_of_lt, eval_square_of_le, rfl, eval_triangle_of_lt, eval_triangle_of_ge⟩

/-! ## Ranges (R190) -/

section Ranges

variable {v d a : Int}

theorem abs_eval_sine_le (ha : 0 ≤ a) : |eval .sine v d a| ≤ a * 32768 := by
  calc |a * sinLut v| = a * |sinLut v| := by rw [abs_mul, abs_of_nonneg ha]
    _ ≤ a * 32768 := mul_le_mul_of_nonneg_left (abs_sinLut_le v) ha

theorem eval_square_eq_or : eval .square v d a = a * 32768 ∨ eval .square v d a = -(a * 32768) :=
  (lt_or_ge v d).imp eval_square_of_lt eval_square_of_le

theorem abs_eval_triangle_le (hv : 0 ≤ v) (hv' : v ≤ 2147483648) (ha : 0 ≤ a) :
    |eval .triangle v d a| ≤ a * 32768 := by
  obtain ⟨hpos, hlt⟩ := clampedDuty_range d
  obtain h | h := lt_or_ge v (clampedDuty d)
  · rw [eval_triangle_of_lt h]
    exact abs_mul_tdiv_le hpos (by omega) (abs_le.2 ⟨by omega, by omega⟩)
  · rw [eval_triangle_of_ge h]
    exact abs_mul_tdiv_le (by omega) (by omega) (abs_le.2 ⟨by omega, by omega⟩)

theorem abs_eval_le (k : Kind) (hv : 0 ≤ v) (hv' : v < 2147483648) (ha : 0 ≤ a) :
    |eval k v d a| ≤ a * 32768 := by
  have hA : |a * 32768| = a * 32768 := abs_of_nonneg (by omega)
  cases k with
  | sine => exact abs_eval_sine_le ha
  | square =>
    obtain h | h := eval_square_eq_or (v := v) (d := d) (a := a)
    · rw [h, hA]
    · rw [h, abs_neg, hA]
  | triangle => exact abs_eval_triangle_le hv hv'.le ha
  | silent =>
    rw [← hA]
    exact abs_nonneg _

end Ranges

/-- Settles O38: every kind by `abs_eval_le`, the two ends of TRIANGLE by their equations. -/
theorem waveformsStayWithinTheAmplitude : Obligations.WaveformsStayWithinTheAmplitude := by
  intro v d a hv hv' _ _ ha _
  rw [← clampedDuty_eq_max_min]
  exact ⟨fun k => abs_le.1 (abs_eval_le k hv hv' ha), eval_square_eq_or, eval_triangle_zero,
    eval_triangle_peak⟩

/-! ## Continuity of TRIANGLE (R191) -/

section Continuity

variable {v d a : Int}

theorem abs_triangle_rising_step_le (h : v + 1 ≤ clampedDuty d) (ha : 0 ≤ a) :
    |eval .triangle (v + 1) d a - eval .triangle v d a| ≤ 2 * (a * 32768) / clampedDuty d + 1 := by
  rw [eval_triangle_of_le h, eval_triangle_of_le (v := v) (by omega),
    show a * 32768 * (2 * (v + 1) - clampedDuty d) =
      a * 32768 * (2 * v - clampedDuty d) + 2 * (a * 32768) by ring]
  exact abs_tdiv_add_sub_tdiv_le (clampedDuty_range d).1 _ (by omega)

theorem abs_triangle_falling_step_le (h : clampedDuty d ≤ v) (ha : 0 ≤ a) :
    |eval .triangle (v + 1) d a - eval .triangle v d a| ≤
      2 * (a * 32768) / (2147483648 - clampedDuty d) + 1 := by
  have hlt := (clampedDuty_range d).2
  rw [abs_sub_comm, eval_triangle_of_ge h, eval_triangle_of_ge (v := v + 1) (by omega),
    show a * 32768 * (2147483648 + clampedDuty d - 2 * v) =
      a * 32768 * (2147483648 + clampedDuty d - 2 * (v + 1)) + 2 * (a * 32768) by ring]
  exact abs_tdiv_add_sub_tdiv_le (by omega) _ (by omega)

theorem abs_triangle_step_le (ha : 0 ≤ a) :
    |eval .triangle (v + 1) d a - eval .triangle v d a| ≤
      2 * (a * 32768) / min (clampedDuty d) (2147483648 - clampedDuty d) + 1 := by
  obtain ⟨hpos, hlt⟩ := clampedDuty_range d
  have hmin : 0 < min (clampedDuty d) (2147483648 - clampedDuty d) := by omega
  have hA : 0 ≤ 2 * (a * 32768) := by omega
  obtain h | h := lt_or_ge v (clampedDuty d)
  · exact (abs_triangle_rising_step_le h ha).trans
      (add_le_add_left (ediv_le_ediv_of_divisor_le hA hmin (min_le_left _ _)) 1)
  · exact (abs_triangle_falling_step_le h ha).trans
      (add_le_add_left (ediv_le_ediv_of_divisor_le hA hmin (min_le_right _ _)) 1)

end Continuity

/-- Settles O39: the wrap is one more falling step, as the falling formula at P gives the value at 0. -/
theorem triangleIsContinuous : Obligations.TriangleIsContinuous := by
  intro v d a _ _ _ _ ha _
  dsimp only
  have hlt := (clampedDuty_range d).2
  rw [← clampedDuty_eq_max_min, Int.tdiv_eq_ediv_of_nonneg (by omega), ← eval_triangle_turn]
  exact ⟨abs_triangle_step_le ha, abs_triangle_falling_step_le (v := 2147483647) (by omega) ha⟩

end Sys2Proof.Machine
end

section
/-! PROOFS. 42_waveform.md R192: the duty fraction of SQUARE, by counting the multiples of the increment below
the threshold. -/

namespace Sys2Proof.Machine

open Sys2Proof.Claims

theorem count_lt_of_le {m n : Nat} (h : m ≤ n) : Nat.count (· < m) n = m := by
  obtain ⟨k, rfl⟩ := Nat.exists_eq_add_of_le h
  rw [Nat.count_add, Nat.count_of_forall fun _ => id, Nat.count_of_forall_not fun i _ => by omega, add_zero]

theorem iterate_advance_zero {inc n : Nat} (hmax : inc ≤ 1073741824) (hn : n * inc < 2147483648) :
    (fun p => advance p inc)^[n] 0 = ↑(n * inc) := by
  rw [phaseClosedForm 0 inc n (by decide) (by decide) (by omega) (by omega), phaseAt, zero_add,
    ← Nat.cast_mul, if_neg (by omega)]
  omega

/-- The ceiling of `d / inc` counts the multiples of `inc` below `d`. -/
theorem lt_ceil_div_iff {inc : Nat} (hinc : 0 < inc) (n d : Nat) :
    n < (d + inc - 1) / inc ↔ n * inc < d := by
  rw [← Nat.ceilDiv_eq_add_pred_div, ← not_le, ceilDiv_le_iff_le_mul hinc, not_le, mul_comm]

/-- Settles O45: frame `n` is at phase `n * inc`, below `d` for the first ceil(d / inc) frames alone. -/
theorem squareDutyFraction : Obligations.SquareDutyFraction := by
  intro inc d a hinc hmax hdvd hd ha
  have hplus : ∀ n ∈ List.range (2147483648 / inc),
      decide (eval .square ((fun p => advance p inc)^[n] 0) d a = a * 32768) =
        decide (n < (d + inc - 1) / inc) := by
    intro n hn
    have hphase : n * inc < 2147483648 := (Nat.lt_div_iff_mul_lt_of_dvd hinc.ne' hdvd).1 (List.mem_range.1 hn)
    rw [iterate_advance_zero hmax hphase, decide_eq_decide, eval_square_eq_iff (by omega), Nat.cast_lt,
      lt_ceil_div_iff hinc]
  have hle : (d + inc - 1) / inc ≤ 2147483648 / inc := by
    rw [← Nat.ceilDiv_eq_add_pred_div, ceilDiv_le_iff_le_mul hinc, Nat.mul_div_cancel' hdvd]
    exact hd
  rw [List.filter_congr hplus, ← List.countP_eq_length_filter]
  exact count_lt_of_le hle

end Sys2Proof.Machine
end

section
/-! PROOFS. 43_mixer_sequencer.md R217 to R219: the sink's answers, by the bits they come in and by the sequencer
state that takes them. -/

namespace Sys2Proof.Machine

/-! ## The request (30_encoding.md R108) -/

theorem srsp_done_bits (n : BitVec 13) : (0#1 ++ n : BitVec (1 + 13)) = BitVec.ofNat 14 n.toNat := by
  have hn := n.isLt
  rw [← BitVec.toNat_inj, toNat_concat, BitVec.toNat_ofNat, BitVec.toNat_ofNat]
  omega

theorem srsp_error_bits (n : BitVec 13) :
    (1#1 ++ n : BitVec (1 + 13)) = BitVec.ofNat 14 (0x2000 + n.toNat) := by
  have hn := n.isLt
  rw [← BitVec.toNat_inj, toNat_concat, BitVec.toNat_ofNat, BitVec.toNat_ofNat]
  omega

theorem decode_srsp_done (m : Nat) (n : BitVec 13) :
    decode m (.srsp (0#1 ++ n : BitVec (1 + 13))) = .sinkDone n := by
  rw [srsp_done_bits]
  exact decodeSrsp_done n

theorem decode_srsp_error (m : Nat) (n : BitVec 13) :
    decode m (.srsp (1#1 ++ n : BitVec (1 + 13))) = .sinkError n := by
  rw [srsp_error_bits]
  exact decodeSrsp_error n

/-! ## The answer -/

theorem State.sinkAnswer_drain {s : State} (f : Block → Block) (h : s.block.seq = .drain) :
    s.sinkAnswer f = .next { s with block := f s.block, resp := .none } := by
  rw [State.sinkAnswer, if_pos h, State.finish_eq]

theorem State.sinkAnswer_ignored {s : State} (f : Block → Block) (h : s.block.seq ≠ .drain) :
    s.sinkAnswer f = .next { s with resp := .none } := by
  rw [State.sinkAnswer, if_neg h, State.finish_eq]

/-- SINK_DONE as the answer it is (R217). -/
theorem exec_sinkDone (n : BitVec 13) (s : State) : exec (.sinkDone n) s =
    s.sinkAnswer fun b => if n = b.len then b.acceptBlock else b.setSinkErr.raiseHalt .sinkShort 0#6 n := rfl

/-- SINK_ERROR as the answer it is (R218). -/
theorem exec_sinkError (n : BitVec 13) (s : State) : exec (.sinkError n) s =
    s.sinkAnswer fun b => b.setSinkErr.raiseHalt .sinkErr 0#6 0#13 := rfl

theorem exec_sinkDone_ignored {s : State} (n : BitVec 13) (h : s.block.seq ≠ .drain) :
    exec (.sinkDone n) s = .next { s with resp := .none } := by
  rw [exec_sinkDone, State.sinkAnswer_ignored _ h]

theorem exec_sinkDone_full {s : State} (h : s.block.seq = .drain) :
    exec (.sinkDone s.block.len) s = .next { s with block := s.block.acceptBlock, resp := .none } := by
  rw [exec_sinkDone, State.sinkAnswer_drain _ h, if_pos rfl]

theorem exec_sinkDone_short {s : State} {n : BitVec 13} (h : s.block.seq = .drain) (hn : n ≠ s.block.len) :
    exec (.sinkDone n) s =
      .next { s with block := s.block.setSinkErr.raiseHalt .sinkShort 0#6 n, resp := .none } := by
  rw [exec_sinkDone, State.sinkAnswer_drain _ h, if_neg hn]

theorem exec_sinkError_ignored {s : State} (n : BitVec 13) (h : s.block.seq ≠ .drain) :
    exec (.sinkError n) s = .next { s with resp := .none } := by
  rw [exec_sinkError, State.sinkAnswer_ignored _ h]

theorem exec_sinkError_drain {s : State} (n : BitVec 13) (h : s.block.seq = .drain) :
    exec (.sinkError n) s =
      .next { s with block := s.block.setSinkErr.raiseHalt .sinkErr 0#6 0#13, resp := .none } := by
  rw [exec_sinkError, State.sinkAnswer_drain _ h]

/-- Settles O29: one equation for each of the three cases of SINK_DONE. -/
theorem sinkDoneFollowsItsRule : Obligations.SinkDoneFollowsItsRule := by
  refine ⟨decode_srsp_done, fun s n => ⟨exec_sinkDone_ignored n, ?_, exec_sinkDone_short⟩⟩
  rintro h rfl
  rw [exec_sinkDone_full h, BitVec.ofNat_add, BitVec.ofNat_toNat, BitVec.setWidth_eq]
  rfl

/-- Settles O30: a sink answer acts in DRAIN alone. -/
theorem sinkErrorFollowsItsRule : Obligations.SinkErrorFollowsItsRule :=
  ⟨decode_srsp_error, fun _ n =>
    ⟨fun h => ⟨exec_sinkError_ignored n h, exec_sinkDone_ignored n h⟩, exec_sinkError_drain n⟩⟩

end Sys2Proof.Machine
end

section
/-! PROOFS. 43_mixer_sequencer.md R212, R213, R215 and R222: narrowing, the bytes of the frame word, the width of
a contribution, and the SILENT channel. -/

namespace Sys2Proof.Machine

/-! ## Narrowing (R212) -/

/-- Settles O34: truncation toward zero is division of the magnitude, on each side of 0. -/
theorem narrowingTruncatesThenSaturates : Obligations.NarrowingTruncatesThenSaturates := by
  intro sum
  rw [toInt_bits16_narrow, narrow_eq_max_min]
  obtain hneg | hpos := lt_or_ge sum 0
  · rw [tdiv_of_neg 32768 hneg]
    exact ⟨rfl, by omega, by omega, rfl, by omega, by omega, by omega⟩
  · rw [Int.tdiv_eq_ediv_of_nonneg hpos]
    exact ⟨rfl, by omega, by omega, rfl, by omega, by omega, by omega⟩

/-! ## The frame word in memory (R213; 20_memory.md R78) -/

theorem wordByte_frameWord_left (l r : Int) {j : Nat} (hj : j < 2) :
    wordByte (frameWord l r) j = (bits16 l).extractLsb' (8 * j) 8 :=
  BitVec.extractLsb'_append_eq_of_add_le (by omega)

theorem wordByte_frameWord_right (l r : Int) {j : Nat} (hj : 2 ≤ j) :
    wordByte (frameWord l r) j = (bits16 r).extractLsb' (8 * j - 16) 8 :=
  BitVec.extractLsb'_append_eq_of_le (by omega)

theorem Block.writeFrame_readByte (b : Block) (k : Nat) (w : Word) {j : Nat} (hj : j < 4) :
    (b.writeFrame k w).buf.readByte (bufAddr k + j) = wordByte w j := by
  rw [b.writeFrame_buf, Memory.readByte_writeWord, if_pos (by omega), Nat.add_sub_cancel_left]

theorem Block.writeFrame_readByte_outside (b : Block) {k a : Nat} (w : Word)
    (ha : a < bufAddr k ∨ bufAddr k + 4 ≤ a) : (b.writeFrame k w).buf.readByte a = b.buf.readByte a := by
  rw [b.writeFrame_buf, Memory.readByte_writeWord, if_neg (by omega)]

/-- Settles O35: the two halves of the word, its four bytes as written, and what the write leaves alone. -/
theorem frameWordLayoutInMemory : Obligations.FrameWordLayoutInMemory := by
  intro b k l r _ hl hl' hr hr'
  dsimp only
  rw [frameWord_low, frameWord_high, toInt_bits16 l hl hl', toInt_bits16 r hr hr']
  refine ⟨rfl, rfl, ?_, ?_, ?_, ?_, fun a => b.writeFrame_readByte_outside _, fun j hj => ?_⟩
  · exact (b.writeFrame_readByte k _ (j := 0) (by decide)).trans (wordByte_frameWord_left l r (by decide))
  · exact (b.writeFrame_readByte k _ (j := 1) (by decide)).trans (wordByte_frameWord_left l r (by decide))
  · exact (b.writeFrame_readByte k _ (j := 2) (by decide)).trans (wordByte_frameWord_right l r (by decide))
  · exact (b.writeFrame_readByte k _ (j := 3) (by decide)).trans (wordByte_frameWord_right l r (by decide))
  · rw [b.readFrame_writeFrame, if_neg hj]

/-! ## The width of a contribution (R215) -/

section Width

variable {v d a : Int}

theorem abs_eval_square_le (ha : 0 ≤ a) : |eval .square v d a| ≤ a * 32768 := by
  rw [abs_le]
  obtain h | h := eval_square_eq_or (v := v) (d := d) (a := a)
  · omega
  · omega

/-- Below phase 0 the rising formula of R188 leaves the amplitude, and its division can only make it smaller. -/
theorem abs_eval_triangle_le_of_neg (hv : v < 0) (ha : 0 ≤ a) :
    |eval .triangle v d a| ≤ a * 32768 * (clampedDuty d - 2 * v) := by
  obtain ⟨hpos, -⟩ := clampedDuty_range d
  rw [eval_triangle_of_lt (by omega)]
  calc |(a * 32768 * (2 * v - clampedDuty d)).tdiv (clampedDuty d)|
      ≤ |a * 32768 * (2 * v - clampedDuty d)| := by
        rw [Int.abs_eq_natAbs, Int.abs_eq_natAbs, Nat.cast_le]
        exact Int.natAbs_tdiv_le_natAbs _ _
    _ = a * 32768 * (clampedDuty d - 2 * v) := by
        rw [abs_mul, abs_of_nonneg (by omega : 0 ≤ a * 32768), abs_of_neg (by omega), neg_sub]

/-- R190 needs a phase from 0 on; below it a TRIANGLE leaves the amplitude, by a factor under 3 P. -/
theorem abs_eval_le_of_range (k : Kind) (hv : -2147483648 < v) (hv' : v < 2147483648) (ha : 0 ≤ a) :
    |eval k v d a| ≤ a * 32768 * (3 * 2147483648) := by
  obtain hneg | hnonneg := lt_or_ge v 0
  · cases k with
    | sine => exact (abs_eval_sine_le ha).trans (by omega)
    | square => exact (abs_eval_square_le ha).trans (by omega)
    | triangle =>
      obtain ⟨-, hlt⟩ := clampedDuty_range d
      exact (abs_eval_triangle_le_of_neg hneg ha).trans (mul_le_mul_of_nonneg_left (by omega) (by omega))
    | silent => exact abs_zero.le.trans (by omega)
  · exact (abs_eval_le k hnonneg hv' ha).trans (by omega)

end Width

/-- Settles O40: an amplitude in Q15 is below 2^30, and 3 P below 2^33. -/
theorem contributionsFitSixtyFourBits : Obligations.ContributionsFitSixtyFourBits := by
  intro k v d a hv hv' _ _ ha ha'
  have hbound := abs_eval_le_of_range (d := d) k hv hv' ha
  omega

/-! ## The SILENT channel (R222) -/

theorem channelSum_silent (slots : List Slot) : channelSum .silent slots = 0 :=
  List.sum_eq_zero fun x hx => by
    obtain ⟨_, -, rfl⟩ := List.mem_map.1 hx
    rfl

theorem Block.leftSample_silent {b : Block} (h : b.lkind = .silent) : b.leftSample = 0 := by
  rw [Block.leftSample, h, channelSum_silent]
  rfl

theorem Block.rightSample_silent {b : Block} (h : b.rkind = .silent) : b.rightSample = 0 := by
  rw [Block.rightSample, h, channelSum_silent]
  rfl

/-- Settles O41: the sum of a SILENT channel is 0, and its half of the frame word the pattern of 0. -/
theorem silentChannelSamplesAreZero : Obligations.SilentChannelSamplesAreZero := by
  intro s hs hk
  refine ⟨_, State.seqTurn_of_fill hs hk, fun h => ?_, fun h => ?_⟩
  · rw [Block.frameStep_readFrame, frameWord_low, Block.leftSample_silent h]
    rfl
  · rw [Block.frameStep_readFrame, frameWord_high, Block.rightSample_silent h]
    rfl

end Sys2Proof.Machine
end

section
/-! PROOFS. 43_mixer_sequencer.md R214, R220 and R223: the turns of SEQ along a run. A block left to SEQ is the
block of the closed form `Block.afterFrames`, frame by frame. -/

namespace Sys2Proof.Machine

open Sys2Proof.Claims

/-! ## A step and a run -/

/-- A FRAMECNT below LEN is an index of BUF, as START admits no longer block (40_config_and_commands.md R145). -/
theorem Block.Inv.frameCnt_lt {b : Block} (h : b.Inv) (hs : b.seq = .fill) : b.frameCnt.toNat < 4096 := by
  obtain ⟨-, hseq⟩ := b.inv_iff.1 h
  obtain ⟨-, ⟨⟨-, -, hmax, -⟩, -⟩, hlt⟩ := (Block.seqInv_fill_iff hs).1 hseq
  exact hlt.trans_le hmax

/-- Settles O49: the one fault needs a FRAMECNT that the invariant excludes. -/
theorem stepNeverStopsUnderTheInvariant : Obligations.StepNeverStopsUnderTheInvariant := by
  intro s hs
  obtain ⟨-, hfill, hk⟩ | ⟨b, r, hnext, -⟩ := step_effect s
  · exact absurd (hs.frameCnt_lt hfill) (Nat.not_lt.2 hk)
  · exact ⟨_, hnext⟩

theorem run_succ {s u : State} (k : Nat) (h : step s = .next u) :
    Sys2Proof.core.run (k + 1) s = Sys2Proof.core.run k u := by
  have hcore : Sys2Proof.core.step s = .next u := h
  simp only [Host.Core.run, hcore]

/-- Induction along a run: what holds at its start, and of the next state whenever it holds before one of its
`k` steps, holds at its end. -/
theorem run_induction {k : Nat} {s : State} (P : Nat → State → Prop) (hzero : P 0 s)
    (hstep : ∀ n < k, ∀ t, P n t → ∃ u, step t = .next u ∧ P (n + 1) u) :
    ∃ t, Sys2Proof.core.run k s = .next t ∧ P k t := by
  induction k generalizing s P with
  | zero => exact ⟨s, rfl, hzero⟩
  | succ k ih =>
    obtain ⟨u, hu, hone⟩ := hstep 0 k.succ_pos s hzero
    obtain ⟨t, ht, hend⟩ := ih (fun n => P (n + 1)) hone fun n hn => hstep (n + 1) (Nat.succ_lt_succ hn)
    exact ⟨t, (run_succ k hu).trans ht, hend⟩

/-! ## A turn of SEQ (R214, R220) -/

theorem step_seq_of_not_fill {s : State} (h : SeqActs s) (hs : s.block.seq ≠ .fill) :
    step s = .next { block := s.block, resp := .none, agenda := s.agenda.tail } := by
  rw [step_of_seqActs h]
  exact State.seqTurn_of_not_fill hs

theorem step_seq_of_fill {s : State} (h : SeqActs s) (hs : s.block.seq = .fill)
    (hk : s.block.frameCnt.toNat < 4096) :
    step s = .next { block := s.block.frameStep, resp := .none, agenda := s.agenda.tail } := by
  rw [step_of_seqActs h]
  exact State.seqTurn_of_fill hs hk

/-- A block outside FILL that is left to SEQ stays as it is. -/
theorem run_waits (k : Nat) {s : State} (ha : s.agenda = []) (hs : s.block.seq ≠ .fill) :
    ∃ t, Sys2Proof.core.run k s = .next t ∧ t.block = s.block ∧ t.agenda = [] := by
  refine run_induction (fun _ t => t.block = s.block ∧ t.agenda = []) ⟨rfl, ha⟩ ?_
  rintro _ _ t ⟨hb, hta⟩
  exact ⟨_, step_seq_of_not_fill (.inl hta) (hb ▸ hs), hb, congrArg List.tail hta⟩

/-- Settles O9: FRAME_STEP in FILL, and a wait for any number of turns elsewhere. -/
theorem seqActsExactlyInFill : Obligations.SeqActsExactlyInFill := by
  intro s h
  refine ⟨fun hs hk => ⟨_, step_seq_of_fill h hs hk, rfl, Block.frameStep_frameCnt_toNat hk⟩,
    fun hs => ⟨step_seq_of_not_fill h hs, fun k ha => ?_⟩⟩
  obtain ⟨t, hrun, hb, -⟩ := run_waits k ha hs
  exact ⟨t, hrun, hb⟩

/-! ## One slot after n ticks (41_phase_bank.md R165) -/

/-- The slot with its phase moved on by `n` frames in the closed form. -/
def Slot.afterFrames (sl : Slot) (n : Nat) : Slot :=
  { sl with phase := bits32 (phaseAt (s32 sl.phase) (u32 sl.pinc) n) }

theorem Slot.afterFrames_zero (sl : Slot) : sl.afterFrames 0 = sl := by
  rw [Slot.afterFrames, phaseAt_zero _ (s32_range _).2, bits32, s32, BitVec.ofInt_toInt]

theorem phaseAt_range {v inc : Int} (n : Nat) (hlo : -2147483648 < v) (hinc : 0 ≤ inc) :
    -2147483648 < phaseAt v inc n ∧ phaseAt v inc n < 2147483648 := by
  have hmoved : 0 ≤ n * inc := mul_nonneg (Int.natCast_nonneg n) hinc
  rw [phaseAt]
  split <;> omega

theorem Slot.tick_afterFrames {sl : Slot} (n : Nat) (hne : sl.phase ≠ 0x80000000#32)
    (hpinc : sl.pinc.toNat ≤ Config.pincMax) : (sl.afterFrames n).tick = sl.afterFrames (n + 1) := by
  have hlo := (s32_ne_min_iff _).1 hne
  have hinc : 0 ≤ u32 sl.pinc := Int.natCast_nonneg _
  have hmax : u32 sl.pinc ≤ 1073741824 := Int.ofNat_le.2 hpinc
  obtain ⟨hlo', hhi'⟩ := phaseAt_range n hlo hinc
  rw [Slot.tick, Slot.afterFrames, s32_bits32 _ hlo'.le hhi', advance_phaseAt n hlo hinc hmax]
  rfl

/-! ## The slot file after n frames -/

theorem phasesAfter_slots (b : Block) (n : Nat) : (phasesAfter b n).slots =
    b.slots.mapIdx fun i sl => if i < b.numActive then sl.afterFrames n else sl := rfl

theorem phasesAfter_zero_slots (b : Block) : (phasesAfter b 0).slots = b.slots := by
  refine List.ext_getElem (by simp [phasesAfter_slots]) fun i _ _ => ?_
  simp only [phasesAfter_slots, List.getElem_mapIdx, Slot.afterFrames_zero, ite_self]

theorem tick_phasesAfter_slots {b : Block} (n : Nat) (h : b.ConfigLegal)
    (hne : ∀ sl ∈ b.slots, sl.phase ≠ 0x80000000#32) :
    (phasesAfter b n).tick.slots = (phasesAfter b (n + 1)).slots := by
  refine List.ext_getElem (by simp [phasesAfter_slots]) fun i hi _ => ?_
  have hlen : i < b.slots.length := by simpa [phasesAfter_slots] using hi
  have hact : (phasesAfter b n).numActive = b.numActive := rfl
  simp only [Block.tick_slots, phasesAfter_slots, List.getElem_mapIdx, hact]
  by_cases hactive : i < b.numActive
  · obtain ⟨hpinc, -⟩ := h.slot hlen hactive
    simp only [if_pos hactive]
    exact Slot.tick_afterFrames n (hne _ (List.getElem_mem hlen)) hpinc
  · simp only [if_neg hactive]

/-- No frame moves the configuration (20_memory.md R84). -/
theorem configuration_phasesAfter (b : Block) (n : Nat) : configuration (phasesAfter b n) = configuration b := by
  have hslots : (phasesAfter b n).slots.map (fun sl => (sl.pinc, sl.pinit, sl.duty, sl.amp)) =
      b.slots.map fun sl => (sl.pinc, sl.pinit, sl.duty, sl.amp) := by
    refine List.ext_getElem (by simp [phasesAfter_slots]) fun i _ _ => ?_
    simp only [phasesAfter_slots, List.getElem_map, List.getElem_mapIdx]
    split <;> rfl
  rw [configuration, hslots]
  rfl

/-! ## The frame buffer after n frames -/

/-- BUF after `n` frames from index 0 on, frame `j` from the phases of `j` frames. -/
def Block.bufAfter (b : Block) : Nat → Memory
  | 0 => b.buf
  | n + 1 => (b.bufAfter n).writeWord (bufAddr n)
      (frameWord (phasesAfter b n).leftSample (phasesAfter b n).rightSample)

theorem Block.bufAfter_readWord (b : Block) {j n : Nat} (h : j < n) :
    (b.bufAfter n).readWord (bufAddr j) =
      frameWord (phasesAfter b j).leftSample (phasesAfter b j).rightSample := by
  induction n with
  | zero => exact absurd h j.not_lt_zero
  | succ n ih =>
    rw [Block.bufAfter]
    obtain hlt | rfl := Nat.lt_succ_iff_lt_or_eq.1 h
    · rw [Memory.readWord_writeWord_apart _ _ _ _ (by simp only [bufAddr]; omega), ih hlt]
    · exact Memory.readWord_writeWord_same _ _ _

/-! ## The block after n frames (R214, R223) -/

/-- A block that started at FRAMECNT 0, after `n` frames of SEQ. -/
def Block.afterFrames (b : Block) (n : Nat) : Block :=
  { phasesAfter b n with
    seq := if n = b.len.toNat then .drain else .fill
    frameCnt := BitVec.ofNat 13 n
    buf := b.bufAfter n }

theorem Block.afterFrames_zero {b : Block} (hs : b.seq = .fill) (hk : b.frameCnt = 0#13)
    (hlen : 1 ≤ b.len.toNat) : b.afterFrames 0 = b := by
  rw [Block.afterFrames, phasesAfter_zero_slots, if_neg (by omega), ← hs, ← hk]
  rfl

theorem Block.afterFrames_frameCnt_toNat {b : Block} {n : Nat} (hn : n ≤ b.len.toNat) :
    (b.afterFrames n).frameCnt.toNat = n :=
  (BitVec.toNat_ofNat n 13).trans (Nat.mod_eq_of_lt (hn.trans_lt b.len.isLt))

theorem Block.afterFrames_seq_of_lt {b : Block} {n : Nat} (hn : n < b.len.toNat) :
    (b.afterFrames n).seq = .fill := if_neg hn.ne

/-- FRAME_STEP on the block of `n` frames gives the block of `n + 1`. -/
theorem Block.frameStep_afterFrames {b : Block} {n : Nat} (h : b.ConfigLegal)
    (hne : ∀ sl ∈ b.slots, sl.phase ≠ 0x80000000#32) (hn : n < b.len.toNat) :
    (b.afterFrames n).frameStep = b.afterFrames (n + 1) := by
  have ⟨_, _, (hmax : b.len.toNat ≤ 4096), _⟩ := h
  have hk := Block.afterFrames_frameCnt_toNat hn.le
  have hseq : (b.afterFrames n).frameStep.seq = (b.afterFrames (n + 1)).seq := by
    rw [Block.frameStep_seq_of_fill (Block.afterFrames_seq_of_lt hn) (by omega), hk]
    rfl
  have hcnt : (b.afterFrames n).frameStep.frameCnt = BitVec.ofNat 13 (n + 1) := (BitVec.ofNat_add n 1).symm
  have hslots : (b.afterFrames n).frameStep.slots = (phasesAfter b (n + 1)).slots :=
    tick_phasesAfter_slots n h hne
  have hbuf : (b.afterFrames n).frameStep.buf = b.bufAfter (n + 1) := by
    rw [Block.frameStep_buf, hk]
    rfl
  calc (b.afterFrames n).frameStep
      = { b with
          seq := (b.afterFrames n).frameStep.seq
          frameCnt := (b.afterFrames n).frameStep.frameCnt
          slots := (b.afterFrames n).frameStep.slots
          buf := (b.afterFrames n).frameStep.buf } := rfl
    _ = b.afterFrames (n + 1) := by
      rw [hseq, hcnt, hslots, hbuf]
      rfl

/-- SEQ alone fills the block with the frames of the closed form. -/
theorem run_afterFrames {s : State} {k : Nat} (hinv : s.Inv) (hs : s.block.seq = .fill)
    (hzero : s.block.frameCnt = 0#13) (ha : s.agenda = []) (hk : k ≤ s.block.len.toNat) :
    ∃ t, Sys2Proof.core.run k s = .next t ∧ t.block = s.block.afterFrames k ∧ t.agenda = [] := by
  obtain ⟨⟨-, -, -, hne⟩, hseq⟩ := s.block.inv_iff.1 hinv
  obtain ⟨-, ⟨hlegal, -⟩, -⟩ := (Block.seqInv_fill_iff hs).1 hseq
  have ⟨_, hmin, hmax, _⟩ := hlegal
  refine run_induction (fun n t => t.block = s.block.afterFrames n ∧ t.agenda = [])
    ⟨(Block.afterFrames_zero hs hzero hmin).symm, ha⟩ ?_
  rintro n hn t ⟨hb, hta⟩
  have hlt : n < s.block.len.toNat := hn.trans_le hk
  have hfill : t.block.seq = .fill := hb ▸ Block.afterFrames_seq_of_lt hlt
  have hcnt : t.block.frameCnt.toNat < 4096 := by
    rw [hb, Block.afterFrames_frameCnt_toNat hlt.le]
    exact hlt.trans_le hmax
  refine ⟨_, step_seq_of_fill (.inl hta) hfill hcnt, ?_, congrArg List.tail hta⟩
  rw [hb, Block.frameStep_afterFrames hlegal hne hlt]

/-- Settles O46: a run of SEQ is `Block.afterFrames`, read field by field. -/
theorem blockFillsGapFree : Obligations.BlockFillsGapFree := by
  intro s k hinv hs hzero ha hk
  obtain ⟨t, hrun, hb, hta⟩ := run_afterFrames hinv hs hzero ha hk
  have hdrain : (s.block.afterFrames k).seq = .drain ↔ k = s.block.len.toNat := by
    simp [Block.afterFrames]
  refine ⟨t, hrun, ?_⟩
  rw [hb]
  exact ⟨Block.afterFrames_frameCnt_toNat hk, rfl, fun j => s.block.bufAfter_readWord, hdrain,
    configuration_phasesAfter s.block k, rfl, hta⟩

end Sys2Proof.Machine
end

section
/-! PROOFS. 60_exceptions.md: no run stops (R240, R242), the races with a reset (R246), HALT and the way out of it
(R243, R244), and the count of frames since START (R250). -/

namespace Sys2Proof.Machine

open Sys2Proof.Claims

/-! ## Runs (R240, R242) -/

theorem exists_step_inv {s : State} (h : s.Inv) : ∃ t, step s = .next t ∧ t.Inv := by
  obtain ⟨t, ht⟩ := stepNeverStopsUnderTheInvariant s h
  exact ⟨t, ht, stepKeepsTheInvariant s t h ht⟩

/-- Settles O50: along a run the invariant holds, and a state of the invariant has a next state. -/
theorem runsNeverStop : Obligations.RunsNeverStop := by
  intro s hs k
  obtain ⟨t, hrun, -⟩ := run_induction (k := k) (fun _ => State.Inv) hs fun _ _ _ => exists_step_inv
  exact ⟨t, hrun⟩

/-! ## A reset as a step (R244) -/

theorem agenda_of_nextInstr {s : State} {i : Instr} (h : nextInstr s = some i) :
    ∃ r, s.agenda = .request r :: s.agenda.tail ∧ decode s.block.numOsc r = i := by
  unfold nextInstr at h
  split at h
  next r rest hagenda => exact ⟨r, by rw [hagenda, List.tail_cons], Option.some.inj h⟩
  next => cases h

theorem step_of_nextInstr {s : State} {i : Instr} (h : nextInstr s = some i) :
    step s = exec i { s with agenda := s.agenda.tail } := by
  obtain ⟨r, hagenda, rfl⟩ := agenda_of_nextInstr h
  exact step_of_request hagenda

/-- Every reset answers, and leaves the reset block: the hard reset, SOFTRESET, and WR_CMD carrying it. -/
theorem step_of_resets {s : State} (h : Resets s) : ∃ t, step s = .next t ∧ t.block = s.block.reset := by
  obtain hrst | hsoft | hcarried := h
  · obtain ⟨rest, hagenda⟩ := List.head?_eq_some_iff.1 hrst
    exact ⟨_, step_of_rst hagenda, rfl⟩
  · exact ⟨_, step_of_nextInstr hsoft, rfl⟩
  · exact ⟨_, step_of_nextInstr hcarried, rfl⟩

/-! ## SOFTRESET and SINK_DONE in either order (R246) -/

theorem step_of_softreset {s : State} {rest : List Event} (h : s.agenda = .request (.cmd 2#32) :: rest) :
    step s = .next { block := s.block.reset, resp := .okayWrite, agenda := rest } :=
  step_of_request h

theorem step_of_sinkDone {s : State} {n : BitVec 13} {rest : List Event}
    (h : s.agenda = .request (encode (.sinkDone n)) :: rest) :
    step s = exec (.sinkDone n) { s with agenda := rest } := by
  rw [step_of_request h]
  exact congrArg (exec · _) (decodeSrsp_done n)

/-- A reset keeps nothing but NUM_OSC and BUF, and accepting a block changes neither. -/
theorem Block.reset_acceptBlock (b : Block) : b.acceptBlock.reset = b.reset := rfl

/-- Settles O32: after SOFTRESET the block is out of DRAIN; after SINK_DONE it is a FILL block to reset. -/
theorem softresetAndSinkDoneInEitherOrder : Obligations.SoftresetAndSinkDoneInEitherOrder := by
  intro s rest hs
  constructor
  · intro hagenda
    refine ⟨_, step_of_softreset hagenda, rfl, ?_⟩
    rw [step_of_sinkDone rfl]
    exact exec_sinkDone_ignored _ nofun
  · intro hagenda
    refine ⟨_, (step_of_sinkDone hagenda).trans (exec_sinkDone_full hs), rfl, rfl, ?_⟩
    rw [step_of_softreset rfl, Block.reset_acceptBlock]

/-! ## HALT (R243, R244) -/

/-- In HALT an operation other than SOFTRESET can change the two warnings alone. -/
theorem Block.Caused.eq_of_halt {b b' : Block} {c : Instr} (h : b.Caused c b') (hs : b.seq = .halt)
    (hr : c ≠ .softreset) : b' = { b with cmdErr := b'.cmdErr, wign := b'.wign } := by
  cases h with
  | same | ignoredWrite | commandError | cleared => rfl
  | reset => exact absurd rfl hr
  | configured hidle | rejected _ _ hidle | started hidle => cases hs.symm.trans hidle
  | accepted hdrain | sinkFailed _ hdrain | sinkShort _ hdrain => cases hs.symm.trans hdrain

theorem State.Caused.eq_of_halt {s : State} {b' : Block} (h : s.Caused b') (hs : s.block.seq = .halt)
    (hr : ¬ Resets s) : b' = { s.block with cmdErr := b'.cmdErr, wign := b'.wign } := by
  cases h with
  | waited => rfl
  | framed _ hfill => cases hs.symm.trans hfill
  | hardReset hrst => exact absurd (.inl hrst) hr
  | ran i hn _ hb => exact hb.eq_of_halt hs fun hi => hr (resets_of_commandOf hn hi)

/-- Settles O53: a reset by `step_of_resets`, any other step by its effects in HALT. -/
theorem haltIsLeftOnlyByReset : Obligations.HaltIsLeftOnlyByReset := by
  intro s hs
  by_cases hr : Resets s
  · obtain ⟨t, ht, hb⟩ := step_of_resets hr
    exact ⟨t, ht, absurd hr, fun _ => hb⟩
  · obtain ⟨-, hfill, -⟩ | ⟨b, r, hnext, -⟩ := step_effect s
    · cases hs.symm.trans hfill
    · exact ⟨_, hnext, (step_caused hnext).eq_of_halt hs, (absurd · hr)⟩

/-! ## The frames since START (R250) -/

/-- BLKCNT·LEN + FRAMECNT: the frames of the accepted blocks, and those of the block in BUF. -/
def Block.frameTotal (b : Block) : Nat := b.blkCnt.toNat * b.len.toNat + b.frameCnt.toNat

theorem Block.frameTotal_of_counters_zero {b : Block} (hblk : b.blkCnt = 0#32) (hframe : b.frameCnt = 0#13) :
    b.frameTotal = 0 := by
  simp [Block.frameTotal, hblk, hframe]

theorem Block.frameTotal_frameStep {b : Block} (hk : b.frameCnt.toNat < 4096) :
    b.frameStep.frameTotal = b.frameTotal + 1 := by
  rw [Block.frameTotal, Block.frameStep_frameCnt_toNat hk, b.frameStep_blkCnt, b.frameStep_len,
    Block.frameTotal, Nat.add_assoc]

/-- Accepting a full block moves its LEN frames from FRAMECNT to BLKCNT. -/
theorem Block.frameTotal_acceptBlock {b : Block} (hfull : b.frameCnt = b.len)
    (hwrap : b.blkCnt.toNat + 1 < 2 ^ 32) : b.acceptBlock.frameTotal = b.frameTotal := by
  have hblk : b.acceptBlock.blkCnt.toNat = b.blkCnt.toNat + 1 := by
    rw [b.acceptBlock_blkCnt]
    bv_omega
  calc b.acceptBlock.frameTotal
      = (b.blkCnt.toNat + 1) * b.len.toNat + 0 := by rw [Block.frameTotal, hblk]; rfl
    _ = b.frameTotal := by rw [Block.frameTotal, hfull, Nat.add_zero, Nat.succ_mul]

theorem Block.Inv.counters_zero {b : Block} (h : b.Inv) (hs : b.seq = .idle) :
    b.blkCnt = 0#32 ∧ b.frameCnt = 0#13 := by
  obtain ⟨-, hseq⟩ := b.inv_iff.1 h
  obtain ⟨-, hframe, hblk, -⟩ := (Block.seqInv_idle_iff hs).1 hseq
  exact ⟨hblk, hframe⟩

theorem Block.Inv.frameCnt_eq_len {b : Block} (h : b.Inv) (hs : b.seq = .drain) : b.frameCnt = b.len := by
  obtain ⟨-, hseq⟩ := b.inv_iff.1 h
  exact ((Block.seqInv_drain_iff hs).1 hseq).2.2

/-- No operation but SOFTRESET moves the total: in IDLE, where LEN can change and START clears the counters, it
is 0. -/
theorem Block.Caused.frameTotal_eq {b b' : Block} {c : Instr} (h : b.Caused c b') (hb : b.Inv)
    (hwrap : b.blkCnt.toNat + 1 < 2 ^ 32) (hr : c ≠ .softreset) : b'.frameTotal = b.frameTotal := by
  cases h with
  | configured hs _ hc =>
    obtain ⟨hblk, hframe⟩ := hb.counters_zero hs
    obtain ⟨_, _, _, _, _, _, rfl, -⟩ := hc
    rw [Block.frameTotal_of_counters_zero hblk hframe]
    exact Block.frameTotal_of_counters_zero hblk hframe
  | reset => exact absurd rfl hr
  | started hs =>
    obtain ⟨hblk, hframe⟩ := hb.counters_zero hs
    rw [Block.frameTotal_of_counters_zero hblk hframe]
    exact Block.frameTotal_of_counters_zero rfl rfl
  | accepted hs => exact Block.frameTotal_acceptBlock (hb.frameCnt_eq_len hs) hwrap
  | same | ignoredWrite | commandError | cleared | rejected | sinkFailed | sinkShort => rfl

theorem not_seqActs_of_nextInstr {s : State} {i : Instr} (h : nextInstr s = some i) : ¬ SeqActs s := by
  obtain ⟨r, hagenda, -⟩ := agenda_of_nextInstr h
  rw [SeqActs, hagenda]
  rintro (h | h) <;> cases h

/-- Settles O59: FRAME_STEP counts one frame, and no other effect but a reset moves the total. -/
theorem frameTotalCountsFrameSteps : Obligations.FrameTotalCountsFrameSteps := by
  intro s t hs h hr hwrap
  change t.block.frameTotal = s.block.frameTotal +
    if s.block.seq = .fill ∧ (s.agenda = [] ∨ s.agenda.head? = some .seq) then 1 else 0
  have hc := step_caused h
  generalize t.block = b' at hc ⊢
  cases hc with
  | waited _ hfill => rw [if_neg fun hframe => hfill hframe.1, Nat.add_zero]
  | framed hacts hfill => rw [if_pos ⟨hfill, hacts⟩, Block.frameTotal_frameStep (hs.frameCnt_lt hfill)]
  | hardReset hrst => exact absurd (.inl hrst) hr
  | ran i hn _ hb =>
    rw [if_neg fun hframe => not_seqActs_of_nextInstr hn hframe.2, Nat.add_zero]
    exact hb.frameTotal_eq hs hwrap fun hi => hr (resets_of_commandOf hn hi)

end Sys2Proof.Machine
end

section
/-! PROOFS. 70_reset_and_hazards.md R270 and R271: what a reset leaves, and the invariant at power-on. The two
meet in one equation: a reset gives the block of power-on, on the same number of slots and the same BUF. -/

namespace Sys2Proof.Machine

/-! ## A reset is power-on with the slots and BUF of the block -/

theorem Block.reset_eq_powerOn (b : Block) : b.reset = (State.powerOn b.numOsc b.buf).block :=
  congrArg (fun sls => { b.reset with slots := sls }) List.map_const'

theorem Block.eq_atReset_of_mem_reset {b : Block} {sl : Slot} (h : sl ∈ b.reset.slots) :
    sl = Slot.atReset := by
  rw [b.reset_eq_powerOn] at h
  exact List.eq_of_mem_replicate h

/-! ## What reset does (R270) -/

theorem exec_softreset (s : State) :
    exec .softreset s = .next { s with block := s.block.reset, resp := .okayWrite } := rfl

theorem State.hardReset_eq (s : State) :
    s.hardReset = .next { s with block := s.block.reset, resp := .none } := rfl

/-- A reset block is in IDLE, so it waits for no answer of the sink (43_mixer_sequencer.md R219). -/
theorem Block.reset_seq_ne_drain (b : Block) : b.reset.seq ≠ .drain := nofun

/-- Settles O10: both resets leave `Block.reset`, and a sink answer acts in DRAIN alone. -/
theorem resetSetsEveryRegisterAndKeepsBuf : Obligations.ResetSetsEveryRegisterAndKeepsBuf := by
  refine ⟨fun _ => rfl, fun s => ⟨s.block.reset, exec_softreset s, ⟨_, s.hardReset_eq, rfl⟩,
    rfl, rfl, rfl, rfl, rfl, rfl, rfl, rfl, rfl, rfl, rfl, rfl, rfl, s.block.numOsc_reset, ?_, rfl, ?_⟩⟩
  · intro sl hsl
    rw [Block.eq_atReset_of_mem_reset hsl]
    exact ⟨rfl, rfl, rfl, rfl, rfl⟩
  · intro n t ht
    have hseq : t.block.seq ≠ .drain := ht ▸ s.block.reset_seq_ne_drain
    exact ⟨⟨_, exec_sinkDone_ignored n hseq, ht⟩, ⟨_, exec_sinkError_ignored n hseq, ht⟩⟩

/-! ## The invariant at power-on (R271) -/

theorem State.powerOn_numOsc (n : Nat) (m : Memory) : (State.powerOn n m).block.numOsc = n :=
  List.length_replicate

theorem State.powerOn_wellKept {n : Nat} {m : Memory} (hmin : 1 ≤ n) (hmax : n ≤ 64) (hwf : m.wf = true) :
    (State.powerOn n m).block.WellKept := by
  refine ⟨?_, ?_, hwf, fun sl hsl => ?_⟩
  · rwa [State.powerOn_numOsc]
  · rwa [State.powerOn_numOsc]
  · rw [List.eq_of_mem_replicate hsl]
    decide

/-- Power-on is a fixed point of reset, so `Block.reset_inv` speaks of it. -/
theorem State.powerOn_inv {n : Nat} {m : Memory} (hmin : 1 ≤ n) (hmax : n ≤ 64) (hwf : m.wf = true) :
    (State.powerOn n m).block.Inv := by
  have hreset := Block.reset_inv (State.powerOn_wellKept hmin hmax hwf)
  rwa [Block.reset_eq_powerOn, State.powerOn_numOsc] at hreset

/-- Settles O48: `State.reset` is a power-on, and a reset block is a power-on block. -/
theorem invariantHoldsAtPowerOn : Obligations.InvariantHoldsAtPowerOn := by
  refine ⟨fun n m => State.powerOn_inv, State.powerOn_inv (by decide) (by decide) rfl,
    fun b hmin hmax hwf => ?_⟩
  rw [b.reset_eq_powerOn]
  exact State.powerOn_inv hmin hmax hwf

end Sys2Proof.Machine
end
